-- ==== Sys2Proof/Word.lean ====
section
/-! DEFINITION. The byte (00_scope.md R7) and the byte sequence (R8). -/

namespace Sys2Proof

/-- A byte: an unsigned integer 0 to 255, bit 0 the least significant (R7). -/
abbrev Byte := BitVec 8

/-- A byte sequence: a finite list of bytes; index 0 travels first on the link (R8, R48). -/
abbrev Seq := List Byte

end Sys2Proof
end

