-- ==== Sys2Proof/Syntax.lean ====
section
/-! DEFINITION. The instructions: one constructor per row of spec/opcode_table.json. -/

namespace Sys2Proof

/-- The rows of the opcode table. The first fourteen are operation words (format OPWORD8, 30_encoding.md R74 to R76); the last
four are the escape sequences of the wire (format WIRE_ESCAPE16, R63), which are no operation words. -/
inductive Instr where
  /-- `10`, start_measurement (R91). -/
  | build0
  /-- `11`, stop_measurement (R92). -/
  | build1
  /-- `12`, read_measurement (R93). -/
  | build2
  /-- `13`, read_product_type (R94). -/
  | build3
  /-- `14`, read_serial_number (R95). -/
  | build4
  /-- `15`, read_firmware_version (R96). -/
  | build5
  /-- `16`, read_status_register (R97). -/
  | build6
  /-- `20` (R103). -/
  | destuff
  /-- `30` (R121). -/
  | trim
  /-- `40` (R122). -/
  | xform
  /-- `50` (R131). -/
  | stuff
  /-- `60` (R143). -/
  | chkval
  /-- `70` (R145). -/
  | xformv
  /-- Any of the 243 undefined words `w` (R76). -/
  | illegal (w : Byte)
  /-- `7D 5E`, stands for `7E` (R63). -/
  | esc7E
  /-- `7D 5D`, stands for `7D` (R63). -/
  | esc7D
  /-- `7D 31`, stands for `11` (R63). -/
  | esc11
  /-- `7D 33`, stands for `13` (R63). -/
  | esc13
  deriving DecidableEq, Repr

/-- The two formats of the opcode table: the 8-bit operation word of `H_OP` (R74) and the two-byte pattern of the raw byte
stream (R63). -/
inductive Format where
  | opWord
  | wireEscape
  deriving DecidableEq, Repr

/-- The format of an instruction's encoding. -/
def Instr.format : Instr → Format
  | .build0 => .opWord
  | .build1 => .opWord
  | .build2 => .opWord
  | .build3 => .opWord
  | .build4 => .opWord
  | .build5 => .opWord
  | .build6 => .opWord
  | .destuff => .opWord
  | .trim => .opWord
  | .xform => .opWord
  | .stuff => .opWord
  | .chkval => .opWord
  | .xformv => .opWord
  | .illegal _ => .opWord
  | .esc7E => .wireEscape
  | .esc7D => .wireEscape
  | .esc11 => .wireEscape
  | .esc13 => .wireEscape

end Sys2Proof
end

