-- ==== Sys2Proof/WellFormed.lean ====
section
/-! DEFINITION. Which terms of `Instr` are instructions of the machine. -/

namespace Sys2Proof

/-- The thirteen defined operation words (30_encoding.md R75). -/
def definedWords : List Byte :=
  [0x10#8, 0x11#8, 0x12#8, 0x13#8, 0x14#8, 0x15#8, 0x16#8, 0x20#8, 0x30#8, 0x40#8, 0x50#8, 0x60#8, 0x70#8]

/-- An illegal word is a word outside the thirteen (R76); every other instruction has no operand to check. -/
def Instr.wf : Instr → Bool
  | .illegal w => !definedWords.contains w
  | .build0 => true
  | .build1 => true
  | .build2 => true
  | .build3 => true
  | .build4 => true
  | .build5 => true
  | .build6 => true
  | .destuff => true
  | .trim => true
  | .xform => true
  | .stuff => true
  | .chkval => true
  | .xformv => true
  | .esc7E => true
  | .esc7D => true
  | .esc11 => true
  | .esc13 => true

end Sys2Proof
end

