-- ==== Sys2Proof/Decode.lean ====
section
/-! DEFINITION. From bits to instructions, and the encoder. -/

namespace Sys2Proof

/-- `opc = w[7:4]` (30_encoding.md R74). -/
def opcField (w : Byte) : Nat := (w.extractLsb' 4 4).toNat

/-- `arg = w[3:0]`, an unsigned number as it stands (R74). -/
def argField (w : Byte) : Nat := (w.extractLsb' 0 4).toNat

/-- The instruction of an operation word (R75); every word outside the thirteen is illegal (R76). -/
def decodeWord (w : Byte) : Instr :=
  match opcField w, argField w with
  | 1, 0 => .build0
  | 1, 1 => .build1
  | 1, 2 => .build2
  | 1, 3 => .build3
  | 1, 4 => .build4
  | 1, 5 => .build5
  | 1, 6 => .build6
  | 2, 0 => .destuff
  | 3, 0 => .trim
  | 4, 0 => .xform
  | 5, 0 => .stuff
  | 6, 0 => .chkval
  | 7, 0 => .xformv
  | _, _ => .illegal w

/-- The escape sequence whose continuation byte is `c`, if `c` is one of the four recognised ones (R63). -/
def decodeContinuation (c : Byte) : Option Instr :=
  if c = 0x5E#8 then some .esc7E
  else if c = 0x5D#8 then some .esc7D
  else if c = 0x31#8 then some .esc11
  else if c = 0x33#8 then some .esc13
  else none

/-- Why bytes are no instruction of the format asked for. -/
inductive DecodeError where
  /-- No byte is left. -/
  | empty
  /-- The wire pattern does not open with the escape byte `7D`. -/
  | notEscape (b : Byte)
  /-- The escape byte is the last byte (41_destuff.md R102, D9). -/
  | danglingEscape
  /-- The byte after `7D` is none of `5E`, `5D`, `31`, `33` (R102). -/
  | unknownContinuation (c : Byte)
  deriving DecidableEq, Repr

/-- Read one instruction of a format off the front of a byte list. Every 8-bit word is accepted as an operation word
(20_memory.md R43); a wire escape is `7D` and a recognised continuation (R63). -/
def decode : Format → List Byte → Except DecodeError (Instr × List Byte)
  | .opWord, [] => .error .empty
  | .opWord, w :: rest => .ok (decodeWord w, rest)
  | .wireEscape, [] => .error .empty
  | .wireEscape, [b] => .error (if b = 0x7D#8 then .danglingEscape else .notEscape b)
  | .wireEscape, b :: c :: rest =>
    if b = 0x7D#8 then
      match decodeContinuation c with
      | some i => .ok (i, rest)
      | none => .error (.unknownContinuation c)
    else .error (.notEscape b)

/-- Where the table's numbering puts the two bytes of a wire escape: "first byte in bits 15:8". -/
def wireBytes (w : Nat) : Byte × Byte := (BitVec.ofNat 8 (w / 256), BitVec.ofNat 8 w)

/-- Whether a row of `nbits` bits holds a wire escape sequence: sixteen bits that decode as one. -/
def isWireRow (nbits w : Nat) : Bool :=
  nbits == 16 && (wireBytes w).1 == 0x7D#8 && (decodeContinuation (wireBytes w).2).isSome

/-- The instruction the decoder reads from a row of the opcode table. A row that is no wire escape is an operation word: 8
bits, the least significant ones; the bits some rows are given above it are no part of the word (R74; log 5). -/
def decodeTableWord (nbits w : Nat) : Option Instr :=
  if isWireRow nbits w then
    match decode .wireEscape [(wireBytes w).1, (wireBytes w).2] with
    | .ok (i, _) => some i
    | .error _ => none
  else if nbits < 8 then none
  else
    match decode .opWord [BitVec.ofNat 8 w] with
    | .ok (i, _) => some i
    | .error _ => none

/-- The bytes of an instruction, in link order (R63, R75). -/
def encode : Instr → List Byte
  | .build0 => [0x10#8]
  | .build1 => [0x11#8]
  | .build2 => [0x12#8]
  | .build3 => [0x13#8]
  | .build4 => [0x14#8]
  | .build5 => [0x15#8]
  | .build6 => [0x16#8]
  | .destuff => [0x20#8]
  | .trim => [0x30#8]
  | .xform => [0x40#8]
  | .stuff => [0x50#8]
  | .chkval => [0x60#8]
  | .xformv => [0x70#8]
  | .illegal w => [w]
  | .esc7E => [0x7D#8, 0x5E#8]
  | .esc7D => [0x7D#8, 0x5D#8]
  | .esc11 => [0x7D#8, 0x31#8]
  | .esc13 => [0x7D#8, 0x33#8]

/-- An instruction's bits as the opcode table numbers them: the value of its bytes, the first the most significant. -/
def tableWord (i : Instr) : Nat := (encode i).foldl (fun n b => n * 256 + b.toNat) 0

/-- How many bits the table gives an instruction. -/
def tableBits (i : Instr) : Nat := 8 * (encode i).length

end Sys2Proof
end

