-- ==== Sys2Proof/Config.lean ====
section
/-! DEFINITION. What is fixed for one framer: the parameters of 00_scope.md R6, and the frame ROM (R27, R67). -/

namespace Sys2Proof

/-- How far the buffer's capacity exceeds the least one allowed: OPEN (R6, D3), so no proof can see it. Log 3. -/
opaque Config.bufCapExtra : Nat

/-- `BUF_CAP`: any natural number that is at least 92 (R6). -/
def Config.bufCap : Nat := Config.bufCapExtra + 92

/-- `REG_BASE`, where the platform places the framer's registers: OPEN (R6, R47, D20). No rule reads it. Log 8. -/
opaque Config.regBase : Nat

/-- `HDR_LEN`: how many leading bytes TRIM removes (R6). -/
abbrev Config.hdrLen : Nat := 5

/-- `TLR_LEN`: how many trailing bytes TRIM removes (R6). -/
abbrev Config.tlrLen : Nat := 2

/-- `MIN_FRAME`: the least length TRIM accepts (R6). -/
abbrev Config.minFrame : Nat := 7

/-- `MIN_CHK`: the least length CHKVAL accepts (R6, D13). -/
abbrev Config.minChk : Nat := 3

/-- `FRAME_ROM`, indexed by the command index 0 to 6 (R27, R67): `N_CMD` is its length, 7. -/
def Config.frameRom : List Seq :=
  [ [0x7E#8, 0x00#8, 0x00#8, 0x02#8, 0x01#8, 0x03#8, 0xF9#8, 0x7E#8],
    [0x7E#8, 0x00#8, 0x01#8, 0x00#8, 0xFE#8, 0x7E#8],
    [0x7E#8, 0x00#8, 0x03#8, 0x00#8, 0xFC#8, 0x7E#8],
    [0x7E#8, 0x00#8, 0xD0#8, 0x01#8, 0x00#8, 0x2E#8, 0x7E#8],
    [0x7E#8, 0x00#8, 0xD0#8, 0x01#8, 0x03#8, 0x2B#8, 0x7E#8],
    [0x7E#8, 0x00#8, 0xD1#8, 0x00#8, 0x2E#8, 0x7E#8],
    [0x7E#8, 0x00#8, 0xD2#8, 0x01#8, 0x00#8, 0x2C#8, 0x7E#8] ]

end Sys2Proof
end

