-- ==== Sys2Proof/Machine/State.lean ====
section
/-! DEFINITION. What the machine holds, as plain data, and why a step can stop. -/

namespace Sys2Proof.Machine

/-- What the host can do to the framer. The first five are the transactions of 20_memory.md R40 to R43. `regRead` and `regWrite`
are the accesses by register number of 10_state.md R28 (log 6). `wire` is no transaction of a host: it is how the model runs a
row of the opcode table that is no operation word (log 4). -/
inductive Txn where
  /-- `H_RESET` (R40). -/
  | reset
  /-- `H_LOAD(s)` (R41). -/
  | load (s : Seq)
  /-- `H_OP(w)` (R43). -/
  | op (w : Byte)
  /-- `H_READ_BUF` (R42). -/
  | readBuf
  /-- `H_READ_STATUS` (R42). -/
  | readStatus
  /-- A read of the register numbered `n` (R28). -/
  | regRead (n : Nat)
  /-- A write of `v` to the register numbered `n` (R28). -/
  | regWrite (n : Nat) (v : Seq)
  /-- The two-byte pattern `b c` of the raw byte stream (R63). -/
  | wire (b c : Byte)
  deriving DecidableEq, Repr

/-- What a read returns to the host (R42, R28). -/
inductive Reply where
  /-- The sequence `BUF[0:BUF_LEN]`. -/
  | buf (s : Seq)
  /-- The 8 bits of `STATUS`. -/
  | status (v : Byte)
  /-- `BUF_LEN` read on its own (R28). -/
  | bufLen (n : Nat)
  deriving DecidableEq, Repr

/-- The state. `buf` and `status` are the framer's (R22, R23); `BUF_LEN` is the length of `buf` (R22, R33; log 1). `script` and
`returned` are the host's side and the model's own fields (R30, R42, R79, R192; log 2). -/
structure State where
  /-- `BUF`, the working buffer (R22). -/
  buf : Seq
  /-- `STATUS` (R23). -/
  status : Byte
  /-- The transactions the host will still issue, next first. -/
  script : List Txn
  /-- What the host's reads have returned, oldest first. -/
  returned : List Reply
  deriving DecidableEq, Repr

/-- Reasons the machine stops by itself. There is none: every error of the framer ends an operation with a flag, and the
machine goes on (60_exceptions.md R164, R169). -/
inductive Fault where
  deriving DecidableEq, Repr

/-- Reasons a step has no meaning. Each is one the spec asks a model to refuse, or an entry that is no part of the machine. -/
inductive Refusal where
  /-- An instruction whose meaning is not written. Raised by no arm of `exec`. Safe: nothing is said of it. -/
  | notModelled (mnemonic : String)
  /-- Raised by `H_LOAD` of `n` bytes, `n > BUF_CAP`: "a model refuses it" (R41, U6). Safe: nothing is said of it. -/
  | loadOverCapacity (n : Nat)
  /-- Raised by a read of `OP` or of a register above 3 (R28, U7). Safe: nothing is said of it. -/
  | undefinedRead (n : Nat)
  /-- Raised by a write of `STATUS`, of `BUF_LEN` alone, of a register above 3, or of `OP` with other than one byte (R28, U7).
  Safe: nothing is said of it. -/
  | undefinedWrite (n : Nat)
  /-- Raised by the model's own `wire` entry when its bytes are no escape sequence. Safe: no host can issue one (log 4). -/
  | notAnEscapeSequence (b c : Byte)
  deriving DecidableEq, Repr

/-- `BUF_LEN` (R22, R33). -/
def State.bufLen (s : State) : Nat := s.buf.length

/-- The machine right after reset, which is also power-on (10_state.md R31, 70_reset_and_hazards.md R180). The host's side is
empty (log 2). -/
def State.reset : State := { buf := [], status := 0x00#8, script := [], returned := [] }

end Sys2Proof.Machine
end

