-- ==== Sys2Proof/Machine/Flags.lean ====
section
/-! DEFINITION. The bits of `STATUS` (10_state.md R23) and the values an operation leaves in it (R24, R25). -/

namespace Sys2Proof.Machine

/-- The five errors (60_exceptions.md R161). -/
inductive Err where
  /-- `ERR_SHORT`: fewer than 7 bytes at the trim stage, or fewer than 3 in CHKVAL. -/
  | short
  /-- `ERR_ESC`: an escape byte without a recognised continuation. -/
  | esc
  /-- `ERR_CHK`: the checksum byte is not the computed one. -/
  | chk
  /-- `ERR_OVF`: the stuffed sequence does not fit. -/
  | ovf
  /-- `ERR_OP`: the word selects no operation. -/
  | op
  deriving DecidableEq, Repr

/-- The error's bit in `STATUS` (R23, R161). -/
def Err.bit : Err → Nat
  | .short => 1
  | .esc => 2
  | .chk => 3
  | .ovf => 4
  | .op => 5

/-- The byte with bit `n` alone set. -/
def flagByte (n : Nat) : Byte := 1#8 <<< n

/-- `STATUS` after `raise e`: the single bit of `e` (R164). -/
def Err.status (e : Err) : Byte := flagByte e.bit

/-- `STATUS` after `ok()`: bit 0, and bit 6 (`CASC`) where the operation's rule adds it (R163). -/
def okStatus (casc : Bool) : Byte := flagByte 0 ||| (if casc then flagByte 6 else 0)

/-- The values `STATUS` can hold: the first at reset only, the others after an operation (R25). -/
def legalStatus : List Byte := [0x00#8, 0x01#8, 0x02#8, 0x04#8, 0x08#8, 0x10#8, 0x20#8, 0x41#8]

/-- `OK` (R23). -/
def State.flagOk (s : State) : Bool := s.status.getLsbD 0
/-- The flag of an error (R23). -/
def State.flagErr (s : State) (e : Err) : Bool := s.status.getLsbD e.bit
/-- `CASC` (R23). -/
def State.flagCasc (s : State) : Bool := s.status.getLsbD 6

/-- How many of bits 0 to 5 of `STATUS` are 1. -/
def resultBits (v : Byte) : Nat := ((List.range 6).filter (fun n => v.getLsbD n)).length

end Sys2Proof.Machine
end

