-- ==== Sys2Proof/Machine/Operands.lean ====
section
/-! DEFINITION. Where operations take their bytes from: positions of the buffer, ranges of it, entries of the ROM, and the
registers by number. -/

namespace Sys2Proof.Machine

/-- `s[a:b]`: the elements with index `i`, `a <= i < b`; empty when `a >= b` (00_scope.md R8). -/
def slice (s : Seq) (a b : Nat) : Seq := (s.take b).drop a

/-- `BUF[a]`, one byte of the buffer space: no value at or beyond `BUF_LEN` (R8, 20_memory.md R46). -/
def State.readByte (s : State) (a : Nat) : Option Byte := s.buf[a]?

/-- `MemRead(a, n)`: the `n` bytes `BUF[a : a+n]`, defined only when `a + n <= BUF_LEN` (00_scope.md R9). -/
def State.memRead (s : State) (a n : Nat) : Option Seq :=
  if a + n ≤ s.bufLen then some (slice s.buf a (a + n)) else none

/-- The buffer space as cells from address `a` on: rising addresses, every listed cell a byte of the sequence. -/
def cellsFrom (a : Nat) : Seq → List Host.Cell
  | [] => []
  | b :: rest => (a, b) :: cellsFrom (a + 1) rest

/-- The buffer space as its one list of cells: indices 0 to `BUF_LEN - 1` (R46; log 1). -/
def State.cells (s : State) : List Host.Cell := cellsFrom 0 s.buf

/-- The canonical form of the buffer space's cells: addresses `a`, `a + 1`, and so on with none left out. An unlisted address has
no value, so no cell can equal what one reads as. -/
def Memory.wfFrom (a : Nat) : List Host.Cell → Bool
  | [] => true
  | c :: rest => c.1 == a && Memory.wfFrom (a + 1) rest

/-- The canonical form of the whole buffer space: `Memory.wfFrom` from index 0. -/
def Memory.wf (cells : List Host.Cell) : Bool := Memory.wfFrom 0 cells

/-- One byte of the buffer space by its address, through the cells. -/
def Memory.read (cells : List Host.Cell) (a : Nat) : Option Byte := (cells.find? (fun c => c.1 == a)).map (·.2)

/-- `ROM[c]`, one entry of the ROM space (R27, R46); the framer has nothing that could change it. -/
def State.rom (_s : State) (c : Nat) : Option Seq := Config.frameRom[c]?

/-- The bytes BUILD copies for the command index `c`. -/
def romFrame (c : Nat) : Seq := Config.frameRom.getD c []

/-- The registers a host sees (10_state.md R28). -/
inductive Reg where
  | op
  | status
  | bufLen
  | buf
  deriving DecidableEq, Repr

/-- The number of a register (R28). -/
def Reg.number : Reg → Nat
  | .op => 0
  | .status => 1
  | .bufLen => 2
  | .buf => 3

/-- The register of a number; none above 3 (R28, U7). -/
def Reg.ofNumber : Nat → Option Reg
  | 0 => some .op
  | 1 => some .status
  | 2 => some .bufLen
  | 3 => some .buf
  | _ => none

/-- Where the platform places a register: `REG_BASE` plus its number, in the unit of `HOST_IF` (R28, R47). -/
def Reg.address (r : Reg) : Nat := Config.regBase + r.number

end Sys2Proof.Machine
end

