-- ==== Sys2Proof/Machine/Ops.lean ====
section
/-! DEFINITION. The functions on byte sequences that carry the semantics (00_scope.md R10), and the operations on the state they
end in: the write of `BUF`, the normal end and the raising of an error. -/

namespace Sys2Proof.Machine

/-! ## De-stuffing (41_destuff.md) -/

/-- `replace2(s, a, b, c)`: every `a b` of `s` becomes `c`, in one left-to-right pass whose output is not looked at again
(R100, D8). -/
def replace2 (a b c : Byte) : Seq → Seq
  | [] => []
  | [x] => [x]
  | x :: y :: rest =>
    if x = a ∧ y = b then c :: replace2 a b c rest else x :: replace2 a b c (y :: rest)

/-- `destuff4(s)`: the four substitutions in their fixed order (R101). -/
def destuff4 (s : Seq) : Seq :=
  let s1 := replace2 0x7D#8 0x5E#8 0x7E#8 s
  let s2 := replace2 0x7D#8 0x5D#8 0x7D#8 s1
  let s3 := replace2 0x7D#8 0x31#8 0x11#8 s2
  replace2 0x7D#8 0x33#8 0x13#8 s3

/-- The four recognised continuation bytes (R63). -/
def isContinuation (c : Byte) : Bool := c == 0x5E#8 || c == 0x5D#8 || c == 0x31#8 || c == 0x33#8

/-- `esc_err(s)`: some `7D` of `s` is last or not followed by a continuation byte (R102, D9). -/
def escErr : Seq → Bool
  | [] => false
  | [x] => x == 0x7D#8
  | x :: y :: rest => (x == 0x7D#8 && !isContinuation y) || escErr (y :: rest)

/-- Whether a sequence begins with `7D 5D 31` or `7D 5D 33`. -/
def cascHead : Seq → Bool
  | x :: y :: z :: _ => x == 0x7D#8 && y == 0x5D#8 && (z == 0x31#8 || z == 0x33#8)
  | _ => false

/-- `casc(s)`: `s` contains `7D 5D 31` or `7D 5D 33` (R104). -/
def casc : Seq → Bool
  | [] => false
  | x :: rest => cascHead (x :: rest) || casc rest

/-! ## Stuffing (43_stuff.md) -/

/-- The raw form of one byte: an escape sequence for the four reserved bytes, itself otherwise (R63, R130). -/
def stuffByte (b : Byte) : Seq :=
  if b = 0x7E#8 then [0x7D#8, 0x5E#8]
  else if b = 0x7D#8 then [0x7D#8, 0x5D#8]
  else if b = 0x11#8 then [0x7D#8, 0x31#8]
  else if b = 0x13#8 then [0x7D#8, 0x33#8]
  else [b]

/-- `stuff(p)` (R130). -/
def stuff : Seq → Seq
  | [] => []
  | b :: rest => stuffByte b ++ stuff rest

/-! ## Trimming and the checksum (42_trim_transform.md, 44_checksum.md) -/

/-- `trim(s) = s[5 : |s| - 2]`; its callers test `|s| >= 7` first (R120). -/
def trim (s : Seq) : Seq := slice s Config.hdrLen (s.length - Config.tlrLen)

/-- The sum of the bytes in the natural numbers (R141). -/
def byteSum : Seq → Nat
  | [] => 0
  | b :: rest => b.toNat + byteSum rest

/-- `chk(b) = 0xFF - (sum mod 256)` (R141). -/
def chk (b : Seq) : Byte := BitVec.ofNat 8 (0xFF - byteSum b % 256)

/-- `chk_ok(f)`: `chk(f[1 : n-2]) == f[n-2]`; its callers test `|f| >= 3` first (R147). -/
def chkOk (f : Seq) : Bool := f[f.length - 2]? == some (chk (slice f 1 (f.length - 2)))

/-! ## The results of the operations, before they reach the state -/

/-- DESTUFF (R103). -/
def destuffResult (s : Seq) : Except Err Seq :=
  if escErr s then .error .esc else .ok (destuff4 s)

/-- TRIM (R121). -/
def trimResult (s : Seq) : Except Err Seq :=
  if s.length < Config.minFrame then .error .short else .ok (trim s)

/-- XFORM: check, de-stuff, trim; the length tested is the de-stuffed one (R122). -/
def xformResult (s : Seq) : Except Err Seq :=
  if escErr s then .error .esc
  else if (destuff4 s).length < Config.minFrame then .error .short
  else .ok (trim (destuff4 s))

/-- STUFF into a buffer of `cap` bytes (R131). -/
def stuffResult (cap : Nat) (p : Seq) : Except Err Seq :=
  if cap < (stuff p).length then .error .ovf else .ok (stuff p)

/-- CHKVAL: the sequence itself, validated (R143). -/
def chkvalResult (f : Seq) : Except Err Seq :=
  if f.length < Config.minChk then .error .short
  else if !chkOk f then .error .chk
  else .ok f

/-- XFORMV: check, de-stuff, length, checksum, trim (R145). -/
def xformvResult (s : Seq) : Except Err Seq :=
  if escErr s then .error .esc
  else if (destuff4 s).length < Config.minFrame then .error .short
  else if !chkOk (destuff4 s) then .error .chk
  else .ok (trim (destuff4 s))

/-! ## The operations on the state -/

/-- `BUF <- t`, and `BUF_LEN <- |t|` with it (00_scope.md R9, 10_state.md R22). -/
def State.writeBuf (s : State) (t : Seq) : State := { s with buf := t }

/-- `STATUS <- v` (R9). -/
def State.setStatus (s : State) (v : Byte) : State := { s with status := v }

/-- `raise E`, all there is to taking an exception: `BUF` and `BUF_LEN` as they were, `STATUS` the single bit of `E`, nothing else
changed, control nowhere (60_exceptions.md R164). There is no return from it (R169). -/
def State.raise (s : State) (e : Err) : State := s.setStatus e.status

/-- The normal end with a result: `BUF <- t` and `ok()`, with `CASC` where the rule adds it (R163). -/
def State.complete (s : State) (t : Seq) (casc : Bool) : State := (s.writeBuf t).setStatus (okStatus casc)

/-- The end of an operation: its result into `BUF`, or its error raised. -/
def settle (s : State) (casc : Bool) : Except Err Seq → Host.Outcome State Fault Refusal
  | .ok t => .next (s.complete t casc)
  | .error e => .next (s.raise e)

/-- BUILD of the command index `c`, 0 to 6 (40_frame_build.md R90). -/
def buildFrame (c : Nat) (s : State) : Host.Outcome State Fault Refusal := settle s false (.ok (romFrame c))

/-- One substitution of `destuff4` on `BUF`, `7D c` becoming `r`; `STATUS` is not written (R63, R101; log 4). -/
def substitute (c r : Byte) (s : State) : Host.Outcome State Fault Refusal := .next (s.writeBuf (replace2 0x7D#8 c r s.buf))

end Sys2Proof.Machine
end

