-- ==== Sys2Proof/Machine/Build.lean ====
section
/-! DEFINITION. Frame construction (40_frame_build.md). -/

namespace Sys2Proof.Machine

/-- `BUILD 0`, start_measurement (R91). -/
def execBuild0 (s : State) : Host.Outcome State Fault Refusal := buildFrame 0 s
/-- `BUILD 1`, stop_measurement (R92). -/
def execBuild1 (s : State) : Host.Outcome State Fault Refusal := buildFrame 1 s
/-- `BUILD 2`, read_measurement (R93). -/
def execBuild2 (s : State) : Host.Outcome State Fault Refusal := buildFrame 2 s
/-- `BUILD 3`, read_product_type (R94). -/
def execBuild3 (s : State) : Host.Outcome State Fault Refusal := buildFrame 3 s
/-- `BUILD 4`, read_serial_number (R95). -/
def execBuild4 (s : State) : Host.Outcome State Fault Refusal := buildFrame 4 s
/-- `BUILD 5`, read_firmware_version (R96). -/
def execBuild5 (s : State) : Host.Outcome State Fault Refusal := buildFrame 5 s
/-- `BUILD 6`, read_status_register (R97). -/
def execBuild6 (s : State) : Host.Outcome State Fault Refusal := buildFrame 6 s

end Sys2Proof.Machine
end

