-- ==== Sys2Proof/Machine/Checksum.lean ====
section
/-! DEFINITION. The checksum validator (44_checksum.md). -/

namespace Sys2Proof.Machine

/-- `CHKVAL` (R143); `BUF` holds what it held before in every case. -/
def execChkval (s : State) : Host.Outcome State Fault Refusal := settle s false (chkvalResult s.buf)

/-- `XFORMV` (R145); `CASC` is that of the raw input. -/
def execXformv (s : State) : Host.Outcome State Fault Refusal := settle s (casc s.buf) (xformvResult s.buf)

end Sys2Proof.Machine
end

