-- ==== Sys2Proof/Machine/Destuff.lean ====
section
/-! DEFINITION. De-stuffing (41_destuff.md): the operation, and the four rows of the escape table as its substitutions. -/

namespace Sys2Proof.Machine

/-- `DESTUFF` (R103). -/
def execDestuff (s : State) : Host.Outcome State Fault Refusal := settle s (casc s.buf) (destuffResult s.buf)

/-- The row `7D 5E` for `7E`, the first substitution (R63, R101; log 4). -/
def execEsc7E (s : State) : Host.Outcome State Fault Refusal := substitute 0x5E#8 0x7E#8 s
/-- The row `7D 5D` for `7D`, the second substitution (R63, R101; log 4). -/
def execEsc7D (s : State) : Host.Outcome State Fault Refusal := substitute 0x5D#8 0x7D#8 s
/-- The row `7D 31` for `11`, the third substitution (R63, R101; log 4). -/
def execEsc11 (s : State) : Host.Outcome State Fault Refusal := substitute 0x31#8 0x11#8 s
/-- The row `7D 33` for `13`, the fourth substitution (R63, R101; log 4). -/
def execEsc13 (s : State) : Host.Outcome State Fault Refusal := substitute 0x33#8 0x13#8 s

end Sys2Proof.Machine
end

