-- ==== Sys2Proof/Machine/Illegal.lean ====
section
/-! DEFINITION. The words that select no operation (30_encoding.md R76, 60_exceptions.md R162). -/

namespace Sys2Proof.Machine

/-- An undefined word raises `ERR_OP` and does nothing else; no copy of the word is kept (R161, R162). -/
def execIllegal (_w : Byte) (s : State) : Host.Outcome State Fault Refusal := settle s false (.error .op)

end Sys2Proof.Machine
end

