-- ==== Sys2Proof/Machine/Stuff.lean ====
section
/-! DEFINITION. Stuffing (43_stuff.md). -/

namespace Sys2Proof.Machine

/-- `STUFF` (R131); never `CASC`. -/
def execStuff (s : State) : Host.Outcome State Fault Refusal := settle s false (stuffResult Config.bufCap s.buf)

end Sys2Proof.Machine
end

