-- ==== Sys2Proof/Machine/Transform.lean ====
section
/-! DEFINITION. Trimming and the receive transform (42_trim_transform.md). -/

namespace Sys2Proof.Machine

/-- `TRIM` (R121); never `CASC`. -/
def execTrim (s : State) : Host.Outcome State Fault Refusal := settle s false (trimResult s.buf)

/-- `XFORM` (R122); `CASC` is that of the raw input. -/
def execXform (s : State) : Host.Outcome State Fault Refusal := settle s (casc s.buf) (xformResult s.buf)

end Sys2Proof.Machine
end

