-- ==== Sys2Proof/Machine/Dispatch.lean ====
section
/-! DEFINITION. One arm per constructor of `Instr`. -/

namespace Sys2Proof.Machine

-- The meaning of an instruction (the rule of each stands beside the definition its arm calls).
def exec (i : Instr) (s : State) : Host.Outcome State Fault Refusal :=
  match i with
  | .build0 => Sys2Proof.Machine.execBuild0 s
  | .build1 => Sys2Proof.Machine.execBuild1 s
  | .build2 => Sys2Proof.Machine.execBuild2 s
  | .build3 => Sys2Proof.Machine.execBuild3 s
  | .build4 => Sys2Proof.Machine.execBuild4 s
  | .build5 => Sys2Proof.Machine.execBuild5 s
  | .build6 => Sys2Proof.Machine.execBuild6 s
  | .destuff => Sys2Proof.Machine.execDestuff s
  | .trim => Sys2Proof.Machine.execTrim s
  | .xform => Sys2Proof.Machine.execXform s
  | .stuff => Sys2Proof.Machine.execStuff s
  | .chkval => Sys2Proof.Machine.execChkval s
  | .xformv => Sys2Proof.Machine.execXformv s
  | .illegal w => Sys2Proof.Machine.execIllegal w s
  | .esc7E => Sys2Proof.Machine.execEsc7E s
  | .esc7D => Sys2Proof.Machine.execEsc7D s
  | .esc11 => Sys2Proof.Machine.execEsc11 s
  | .esc13 => Sys2Proof.Machine.execEsc13 s

end Sys2Proof.Machine
end

