-- ==== Sys2Proof/Machine/Transactions.lean ====
section
/-! DEFINITION. The host transactions (20_memory.md R40 to R43) and the accesses by register number (10_state.md R28). -/

namespace Sys2Proof.Machine

/-- `H_RESET`: `BUF <- []`, `STATUS <- 00`; the host's side is not the framer's and stays (R40). -/
def hostReset (s : State) : Host.Outcome State Fault Refusal := .next ((s.writeBuf []).setStatus 0x00#8)

/-- `H_LOAD(t)`: `BUF <- t`, `STATUS` unchanged; refused, never truncated, when `t` does not fit (R41, U6). -/
def hostLoad (t : Seq) (s : State) : Host.Outcome State Fault Refusal :=
  if t.length ≤ Config.bufCap then .next (s.writeBuf t) else .refused (.loadOverCapacity t.length)

/-- `H_OP(w)`: decode the word, run the operation to its end (R43). -/
def hostOp (w : Byte) (s : State) : Host.Outcome State Fault Refusal := exec (decodeWord w) s

/-- A reply to the host; nothing of the framer changes (R42). -/
def State.reply (s : State) (r : Reply) : State := { s with returned := s.returned ++ [r] }

/-- `H_READ_BUF`: the whole sequence and nothing beyond it (R42). -/
def hostReadBuf (s : State) : Host.Outcome State Fault Refusal := .next (s.reply (.buf s.buf))

/-- `H_READ_STATUS`: the 8 bits of `STATUS` (R42). -/
def hostReadStatus (s : State) : Host.Outcome State Fault Refusal := .next (s.reply (.status s.status))

/-- A read by register number: `STATUS`, `BUF_LEN` and `BUF` can be read, `OP` and numbers above 3 cannot (R28, U7; log 6). -/
def hostRegRead (n : Nat) (s : State) : Host.Outcome State Fault Refusal :=
  match Reg.ofNumber n with
  | some .status => hostReadStatus s
  | some .bufLen => .next (s.reply (.bufLen s.bufLen))
  | some .buf => hostReadBuf s
  | some .op => .refused (.undefinedRead n)
  | none => .refused (.undefinedRead n)

/-- A write by register number: one byte to `OP` starts an operation, `BUF` is written whole; `STATUS`, `BUF_LEN` alone and numbers
above 3 cannot be written (R28, U7; log 6). -/
def hostRegWrite (n : Nat) (v : Seq) (s : State) : Host.Outcome State Fault Refusal :=
  match Reg.ofNumber n, v with
  | some .op, [w] => hostOp w s
  | some .op, _ => .refused (.undefinedWrite n)
  | some .buf, _ => hostLoad v s
  | some .status, _ => .refused (.undefinedWrite n)
  | some .bufLen, _ => .refused (.undefinedWrite n)
  | none, _ => .refused (.undefinedWrite n)

/-- The model's own entry for a row of the escape table (log 4). -/
def runWire (b c : Byte) (s : State) : Host.Outcome State Fault Refusal :=
  match decode .wireEscape [b, c] with
  | .ok (i, _) => exec i s
  | .error _ => .refused (.notAnEscapeSequence b c)

/-- Perform one transaction, whole, before the next is looked at (R44, R45). -/
def perform (t : Txn) (s : State) : Host.Outcome State Fault Refusal :=
  match t with
  | .reset => hostReset s
  | .load v => hostLoad v s
  | .op w => hostOp w s
  | .readBuf => hostReadBuf s
  | .readStatus => hostReadStatus s
  | .regRead n => hostRegRead n s
  | .regWrite n v => hostRegWrite n v s
  | .wire b c => runWire b c s

/-- A framer nobody asks anything of stays as it is (R192 "quiescent"; log 7). -/
def idle (s : State) : Host.Outcome State Fault Refusal := .next s

/-- The entry of a script by which a row of the opcode table is run next: an operation word goes through `H_OP`, a wire escape
through the model's own entry (logs 4, 5). -/
def fetchTxn (nbits w : Nat) : Txn :=
  if isWireRow nbits w then .wire (wireBytes w).1 (wireBytes w).2 else .op (BitVec.ofNat 8 w)

end Sys2Proof.Machine
end

