-- ==== Sys2Proof/Machine/Step.lean ====
section
/-! DEFINITION. One step: the host's next transaction (20_memory.md R44, R45). -/

namespace Sys2Proof.Machine

/-- One step performs the next transaction of the host, whole; with none left the framer is idle. -/
def step (s : State) : Host.Outcome State Fault Refusal :=
  match s.script with
  | [] => idle s
  | t :: rest => perform t { s with script := rest }

/-- `s` with an instruction as the host's next transaction (log 5). -/
def State.withFetchWord (s : State) (nbits w : Nat) : State := { s with script := fetchTxn nbits w :: s.script }

end Sys2Proof.Machine
end

