-- ==== Sys2Proof/Machine/Frames.lean ====
section
/-! DEFINITION. The frames of the link (30_encoding.md R61, R62, R65, R68): what stands where in a frame, and the per-command data the
spec copies for the host. The framer holds none of this; statements about whole frames are made with it. -/

namespace Sys2Proof.Machine

/-- The seven commands, in the order of their index `c` (R67). -/
inductive Command where
  | startMeasurement
  | stopMeasurement
  | readMeasurement
  | readProductType
  | readSerialNumber
  | readFirmwareVersion
  | readStatusRegister
  deriving DecidableEq, Repr

/-- The command index `c` (R67, D5). -/
def Command.index : Command → Nat
  | .startMeasurement => 0
  | .stopMeasurement => 1
  | .readMeasurement => 2
  | .readProductType => 3
  | .readSerialNumber => 4
  | .readFirmwareVersion => 5
  | .readStatusRegister => 6

/-- The BUILD instruction of a command (R75). -/
def Command.build : Command → Instr
  | .startMeasurement => .build0
  | .stopMeasurement => .build1
  | .readMeasurement => .build2
  | .readProductType => .build3
  | .readSerialNumber => .build4
  | .readFirmwareVersion => .build5
  | .readStatusRegister => .build6

/-- The expected response bytes: the length of the answer when no byte of it needed stuffing (R68). -/
def Command.expectedResponse : Command → Nat
  | .startMeasurement => 7
  | .stopMeasurement => 7
  | .readMeasurement => 47
  | .readProductType => 16
  | .readSerialNumber => 24
  | .readFirmwareVersion => 14
  | .readStatusRegister => 12

/-- The payload bytes of the answer: the expected response bytes less 7 (R68). -/
def Command.payloadBytes (c : Command) : Nat := c.expectedResponse - 7

/-- A de-stuffed frame: the markers round a body and its checksum (R61, R62, R140). The body of a request is address, command id,
length and payload; that of a response has one more byte before the length. -/
def frameOf (body : Seq) : Seq := 0x7E#8 :: (body ++ [chk body, 0x7E#8])

/-- The body of a request frame, its length byte counting the payload as in all seven frames (R61). -/
def requestBody (address command : Byte) (payload : Seq) : Seq :=
  [address, command, BitVec.ofNat 8 payload.length] ++ payload

/-- The body of a response frame (R62): five bytes with the start marker before the payload. The names `st` and `len` are names only
(D15). -/
def responseBody (address command st len : Byte) (payload : Seq) : Seq := [address, command, st, len] ++ payload

/-- The raw form of a frame: everything between the markers stuffed, checksum included, and not the markers (R65, G3). -/
def rawFrameOf (body : Seq) : Seq := 0x7E#8 :: (stuff (body ++ [chk body]) ++ [0x7E#8])

end Sys2Proof.Machine
end

