-- ==== Sys2Proof/Machine/Script.lean ====
section
/-! DEFINITION. Host scripts in the notation of 30_encoding.md R79, and what it is for one to end as it claims (70_reset_and_hazards.md
R192). -/

namespace Sys2Proof.Machine

/-- What stands after `OP`: a mnemonic of R75, BUILD with its command (R79). -/
inductive Mnemonic where
  | build (c : Command)
  | destuff
  | trim
  | xform
  | stuff
  | chkval
  | xformv
  deriving DecidableEq, Repr

/-- The word of a mnemonic (R75). -/
def Mnemonic.word : Mnemonic → Byte
  | .build c => 0x10#8 + BitVec.ofNat 8 c.index
  | .destuff => 0x20#8
  | .trim => 0x30#8
  | .xform => 0x40#8
  | .stuff => 0x50#8
  | .chkval => 0x60#8
  | .xformv => 0x70#8

/-- One line of a host script (R79). -/
inductive Line where
  /-- `RESET` -/
  | reset
  /-- `LOAD b0 b1 ...` -/
  | load (s : Seq)
  /-- `OP <mnemonic>` -/
  | op (m : Mnemonic)
  /-- `OP.W hh` -/
  | opW (w : Byte)
  /-- `EXPECT STATUS hh` -/
  | expectStatus (v : Byte)
  /-- `EXPECT BUF b0 b1 ...` -/
  | expectBuf (s : Seq)
  deriving DecidableEq, Repr

/-- The transaction of a line (R79). -/
def Line.txn : Line → Txn
  | .reset => .reset
  | .load s => .load s
  | .op m => .op m.word
  | .opW w => .op w
  | .expectStatus _ => .readStatus
  | .expectBuf _ => .readBuf

/-- What an `EXPECT` line claims its read returns (R79). -/
def Line.claim : Line → Option Reply
  | .expectStatus v => some (.status v)
  | .expectBuf s => some (.buf s)
  | .reset => none
  | .load _ => none
  | .op _ => none
  | .opW _ => none

/-- `s` with a script for its host, and nothing returned yet. -/
def State.withScript (s : State) (lines : List Line) : State :=
  { s with script := lines.map Line.txn, returned := [] }

/-- Run a script from `s` to its end: the state then, if every line was performed and every claim held (R79, R192). -/
def runScript (lines : List Line) (s : State) : Option State :=
  match Sys2Proof.core.run lines.length (s.withScript lines) with
  | .next t => if t.returned = lines.filterMap Line.claim then some t else none
  | .fault _ => none
  | .refused _ => none

end Sys2Proof.Machine
end

