-- ==== Sys2Proof/Machine/Reference.lean ====
section
/-! DEFINITION. Reference functions: no operation computes them, the spec's laws are stated with them (41_destuff.md R100, R105,
R106, 44_checksum.md R148). -/

namespace Sys2Proof.Machine

/-- The reserved byte a continuation byte stands for (R63, R105). -/
def unesc (c : Byte) : Option Byte :=
  if c = 0x5E#8 then some 0x7E#8
  else if c = 0x5D#8 then some 0x7D#8
  else if c = 0x31#8 then some 0x11#8
  else if c = 0x33#8 then some 0x13#8
  else none

/-- `destuff1(s)`, the single-pass reading; defined only on ESC-clean sequences, none elsewhere (R105). -/
def destuff1 : Seq → Option Seq
  | [] => some []
  | [x] => if x = 0x7D#8 then none else some [x]
  | x :: y :: rest =>
    if x = 0x7D#8 then
      match unesc y with
      | some r => (destuff1 rest).map (r :: ·)
      | none => none
    else (destuff1 (y :: rest)).map (x :: ·)

/-- The loop of R100 as it is written there: index `i`, output so far `out`, at most `fuel` turns. -/
def replace2Loop (s : Seq) (a b c : Byte) : Nat → Nat → Seq → Seq
  | 0, _, out => out
  | fuel + 1, i, out =>
    if i < s.length then
      if i + 1 < s.length ∧ s[i]? = some a ∧ s[i + 1]? = some b then replace2Loop s a b c fuel (i + 2) (out ++ [c])
      else replace2Loop s a b c fuel (i + 1) (out ++ s[i]?.toList)
    else out

/-- "s contains p": `p` is a contiguous sub-sequence of `s` (00_scope.md R8). -/
def contains (s p : Seq) : Prop := ∃ front back, s = front ++ p ++ back

/-- `s` contains `7D 31` or `7D 33`: the content whose stuffed form cascades (R106 law 5). -/
def cascades (s : Seq) : Prop := contains s [0x7D#8, 0x31#8] ∨ contains s [0x7D#8, 0x33#8]

/-- The four reserved bytes (30_encoding.md R60). -/
def isReserved (b : Byte) : Bool := b == 0x7E#8 || b == 0x7D#8 || b == 0x11#8 || b == 0x13#8

/-- How many reserved bytes a sequence holds. -/
def reservedCount (s : Seq) : Nat := (s.filter isReserved).length

/-- At how many positions a raw sequence has `7D 5D 31` or `7D 5D 33`: its cascades (R104, R148). -/
def cascadeCount : Seq → Nat
  | [] => 0
  | x :: rest => (if cascHead (x :: rest) then 1 else 0) + cascadeCount rest

end Sys2Proof.Machine
end

