-- ==== Sys2Proof/Safety.lean ====
section
/-! DEFINITION. What the claims call a good state and a good script. -/

namespace Sys2Proof.Machine

/-- The invariant of the framer: the buffer fits (10_state.md R22) and `STATUS` holds a legal value (R25). -/
def State.Inv (s : State) : Prop := s.buf.length ≤ Config.bufCap ∧ s.status ∈ legalStatus

/-- A transaction the spec gives a meaning: one of the five of 20_memory.md, a load that fits (R41), or an access of R28. The model's
own `wire` entry is none. -/
def Txn.defined : Txn → Prop
  | .reset => True
  | .load t => t.length ≤ Config.bufCap
  | .op _ => True
  | .readBuf => True
  | .readStatus => True
  | .regRead n => n = Reg.status.number ∨ n = Reg.bufLen.number ∨ n = Reg.buf.number
  | .regWrite n v => (n = Reg.op.number ∧ v.length = 1) ∨ (n = Reg.buf.number ∧ v.length ≤ Config.bufCap)
  | .wire _ _ => False

/-- A host script (R192): every transaction is defined. -/
def definedScript (script : List Txn) : Prop := ∀ t ∈ script, t.defined

/-- Whether a transaction hands the framer an operation word (R43). -/
def Txn.isOp : Txn → Bool
  | .op _ => true
  | .regWrite n [_] => n == Reg.op.number
  | .regWrite _ _ => false
  | .reset => false
  | .load _ => false
  | .readBuf => false
  | .readStatus => false
  | .regRead _ => false
  | .wire _ _ => false

end Sys2Proof.Machine
end

