-- ==== Sys2Proof/Certificates/Slice0/Obligations.lean ====
section
/-! DEFINITION. The statements for the provers: what the rules of the spec say of the model. -/

open Sys2Proof Sys2Proof.Machine

/-! ## Reset and the host's transactions -/

/-- 10_state.md R31, 20_memory.md R40: power-on and `H_RESET` leave the empty buffer, `STATUS = 00` and the ROM as made; nothing else of
the state changes. `H_RESET` is accepted in every state.
The spec's decision D17. -/
def Obligations.ResetLeavesEmptyBufferAndZeroStatus : Prop :=
  (State.reset.buf = [] ∧ State.reset.bufLen = 0 ∧ State.reset.status = 0x00#8) ∧
  (∀ (s : State) (rest : List Txn), s.script = .reset :: rest →
    step s = .next { s with buf := [], status := 0x00#8, script := rest }) ∧
  (∀ s : State, s.rom 0 = some [0x7E#8, 0x00#8, 0x00#8, 0x02#8, 0x01#8, 0x03#8, 0xF9#8, 0x7E#8] ∧
    s.rom 1 = some [0x7E#8, 0x00#8, 0x01#8, 0x00#8, 0xFE#8, 0x7E#8] ∧
    s.rom 2 = some [0x7E#8, 0x00#8, 0x03#8, 0x00#8, 0xFC#8, 0x7E#8] ∧
    s.rom 3 = some [0x7E#8, 0x00#8, 0xD0#8, 0x01#8, 0x00#8, 0x2E#8, 0x7E#8] ∧
    s.rom 4 = some [0x7E#8, 0x00#8, 0xD0#8, 0x01#8, 0x03#8, 0x2B#8, 0x7E#8] ∧
    s.rom 5 = some [0x7E#8, 0x00#8, 0xD1#8, 0x00#8, 0x2E#8, 0x7E#8] ∧
    s.rom 6 = some [0x7E#8, 0x00#8, 0xD2#8, 0x01#8, 0x00#8, 0x2C#8, 0x7E#8] ∧
    ∀ c, 7 ≤ c → s.rom c = none)

/-- 20_memory.md R41: a load that fits replaces the buffer and leaves `STATUS`; one that does not is refused, never truncated.
The spec's decision D3. -/
def Obligations.LoadReplacesBufferOrIsRefused : Prop :=
  ∀ (s : State) (v : Seq) (rest : List Txn), s.script = .load v :: rest →
    (v.length ≤ Config.bufCap → step s = .next { s with buf := v, script := rest }) ∧
    (Config.bufCap < v.length → step s = .refused (.loadOverCapacity v.length))

/-- 20_memory.md R42: the reads return the whole buffer and the whole of `STATUS`, change nothing of the framer, and a repeated read
returns the same value.
The spec's decision D25. -/
def Obligations.ReadsReturnAndChangeNothing : Prop :=
  (∀ (s : State) (rest : List Txn), s.script = .readBuf :: rest →
    step s = .next { s with script := rest, returned := s.returned ++ [.buf s.buf] }) ∧
  (∀ (s : State) (rest : List Txn), s.script = .readStatus :: rest →
    step s = .next { s with script := rest, returned := s.returned ++ [.status s.status] }) ∧
  (∀ (s : State) (rest : List Txn), s.script = .readBuf :: .readBuf :: rest →
    core.run 2 s = .next { s with script := rest, returned := s.returned ++ [.buf s.buf, .buf s.buf] }) ∧
  (∀ (s : State) (rest : List Txn), s.script = .readStatus :: .readStatus :: rest →
    core.run 2 s = .next { s with script := rest, returned := s.returned ++ [.status s.status, .status s.status] })

/-- 20_memory.md R43: a step whose transaction is `H_OP(w)` is the decoded instruction's meaning, every word is accepted, and a word
that selects no operation ends with `ERR_OP` and no other effect.
The spec's decision D4. -/
def Obligations.StepRunsTheDecodedOperationWord : Prop :=
  ∀ (s : State) (w : Byte) (rest : List Txn), s.script = .op w :: rest →
    step s = exec (decodeWord w) { s with script := rest } ∧
    (∃ t, step s = .next t) ∧
    (w ∉ definedWords → step s = .next { s with status := 0x20#8, script := rest })

/-- Every well-formed instruction, placed next, is the one the decoder reads and the one the step runs. For the four wire escapes
the placing is the model's own (log 4); the placing as such is log 5. -/
def Obligations.StepRunsThePlacedInstruction : Prop :=
  ∀ (i : Instr) (s : State), i.wf = true →
    decodeTableWord (tableBits i) (tableWord i) = some i ∧
    step (s.withFetchWord (tableBits i) (tableWord i)) = exec i s

/-- The model's choice (log 7), after 70_reset_and_hazards.md R192 "every reached state is quiescent": with no transaction left the
framer stays as it is. -/
def Obligations.IdleFramerStaysAsItIs : Prop :=
  ∀ s : State, s.script = [] → step s = .next s

/-- 10_state.md R28 and 93_implementation_defined.md U7 by register number (log 6): `STATUS`, `BUF_LEN` and `BUF` can be read, one byte to `OP`
runs an operation, `BUF` is written whole as by `H_LOAD`, and every other access is refused.
The spec's decision D20. -/
def Obligations.RegisterAccessesByNumber : Prop :=
  (∀ (s : State) (n : Nat) (rest : List Txn), s.script = .regRead n :: rest →
    (n = 1 → step s = .next { s with script := rest, returned := s.returned ++ [.status s.status] }) ∧
    (n = 2 → step s = .next { s with script := rest, returned := s.returned ++ [.bufLen s.bufLen] }) ∧
    (n = 3 → step s = .next { s with script := rest, returned := s.returned ++ [.buf s.buf] }) ∧
    (n = 0 ∨ 3 < n → step s = .refused (.undefinedRead n))) ∧
  (∀ (s : State) (n : Nat) (v : Seq) (rest : List Txn), s.script = .regWrite n v :: rest →
    (∀ w, n = 0 → v = [w] → step s = exec (decodeWord w) { s with script := rest }) ∧
    (n = 0 → v.length ≠ 1 → step s = .refused (.undefinedWrite n)) ∧
    (n = 3 → v.length ≤ Config.bufCap → step s = .next { s with buf := v, script := rest }) ∧
    (n = 3 → Config.bufCap < v.length → step s = .refused (.loadOverCapacity v.length)) ∧
    (n = 1 ∨ n = 2 ∨ 3 < n → step s = .refused (.undefinedWrite n)))

/-! ## Encoding -/

/-- 30_encoding.md R74, R75: the word's two fields, and the thirteen defined words.
The spec's decision D4. -/
def Obligations.ThirteenWordsDecode : Prop :=
  (∀ w : Byte, w.toNat = 16 * opcField w + argField w ∧ argField w < 16) ∧
  decodeWord 0x10#8 = .build0 ∧ decodeWord 0x11#8 = .build1 ∧ decodeWord 0x12#8 = .build2 ∧
  decodeWord 0x13#8 = .build3 ∧ decodeWord 0x14#8 = .build4 ∧ decodeWord 0x15#8 = .build5 ∧
  decodeWord 0x16#8 = .build6 ∧ decodeWord 0x20#8 = .destuff ∧ decodeWord 0x30#8 = .trim ∧
  decodeWord 0x40#8 = .xform ∧ decodeWord 0x50#8 = .stuff ∧ decodeWord 0x60#8 = .chkval ∧
  decodeWord 0x70#8 = .xformv

/-- 30_encoding.md R76, 60_exceptions.md R162: exactly the 243 other words are illegal, and an illegal word raises `ERR_OP` with no other
effect.
The spec's decision D4. -/
def Obligations.OtherWordsRaiseErrOp : Prop :=
  (∀ w : Byte, decodeWord w = .illegal w ↔
    (opcField w = 0 ∨ 8 ≤ opcField w ∨ (opcField w = 1 ∧ 7 ≤ argField w) ∨
      (2 ≤ opcField w ∧ opcField w ≤ 7 ∧ argField w ≠ 0))) ∧
  (∀ w : Byte, decodeWord w = .illegal w ↔ w ∉ definedWords) ∧ definedWords.Nodup ∧ 256 - definedWords.length = 243 ∧
  (∀ (w : Byte) (s : State), exec (.illegal w) s = .next { s with status := 0x20#8 })

/-- Decoding the bytes of a well-formed instruction, whatever follows them, gives it back and leaves what follows. -/
def Obligations.DecodeOfEncodeIsTheInstruction : Prop :=
  ∀ (i : Instr) (rest : List Byte), i.wf = true → decode i.format (encode i ++ rest) = .ok (i, rest)

/-- What a decoder reads is well-formed, and encoding it gives the bytes it was read from. -/
def Obligations.EncodeOfDecodedIsTheBytes : Prop :=
  ∀ (f : Format) (bs rest : List Byte) (i : Instr), decode f bs = .ok (i, rest) →
    bs = encode i ++ rest ∧ i.format = f ∧ i.wf = true

/-- 30_encoding.md R63, R64: the escape table in both directions, its order, the inverted bit, and that no byte is both reserved and a
continuation.
The clauses of the inverted bit and of disjointness are R64, which the spec marks as derived. -/
def Obligations.EscapeTableInBothDirections : Prop :=
  (stuff [0x7E#8] = [0x7D#8, 0x5E#8] ∧ stuff [0x7D#8] = [0x7D#8, 0x5D#8] ∧
    stuff [0x11#8] = [0x7D#8, 0x31#8] ∧ stuff [0x13#8] = [0x7D#8, 0x33#8]) ∧
  (destuff4 [0x7D#8, 0x5E#8] = [0x7E#8] ∧ destuff4 [0x7D#8, 0x5D#8] = [0x7D#8] ∧
    destuff4 [0x7D#8, 0x31#8] = [0x11#8] ∧ destuff4 [0x7D#8, 0x33#8] = [0x13#8]) ∧
  (∀ s, destuff4 s = replace2 0x7D#8 0x33#8 0x13#8 (replace2 0x7D#8 0x31#8 0x11#8
    (replace2 0x7D#8 0x5D#8 0x7D#8 (replace2 0x7D#8 0x5E#8 0x7E#8 s)))) ∧
  (∀ c : Byte, isContinuation c = true ↔ c = 0x5E#8 ∨ c = 0x5D#8 ∨ c = 0x31#8 ∨ c = 0x33#8) ∧
  (∀ b : Byte, isReserved b = true ↔ b = 0x7E#8 ∨ b = 0x7D#8 ∨ b = 0x11#8 ∨ b = 0x13#8) ∧
  (∀ r : Byte, isReserved r = true → stuff [r] = [0x7D#8, r ^^^ 0x20#8] ∧ isContinuation (r ^^^ 0x20#8) = true) ∧
  (∀ c : Byte, ¬ (isContinuation c = true ∧ isReserved c = true))

/-! ## Frame construction -/

/-- 40_frame_build.md R92, R93, R95, R97 with the other three commands: the frame, its length, `STATUS = 01`, nothing else changed, and the
expected answer's length. -/
def Obligations.BuildCopiesTheRomFrame : Prop :=
  (∀ s : State,
    exec .build0 s = .next { s with buf := [0x7E#8, 0x00#8, 0x00#8, 0x02#8, 0x01#8, 0x03#8, 0xF9#8, 0x7E#8], status := 0x01#8 } ∧
    exec .build1 s = .next { s with buf := [0x7E#8, 0x00#8, 0x01#8, 0x00#8, 0xFE#8, 0x7E#8], status := 0x01#8 } ∧
    exec .build2 s = .next { s with buf := [0x7E#8, 0x00#8, 0x03#8, 0x00#8, 0xFC#8, 0x7E#8], status := 0x01#8 } ∧
    exec .build3 s = .next { s with buf := [0x7E#8, 0x00#8, 0xD0#8, 0x01#8, 0x00#8, 0x2E#8, 0x7E#8], status := 0x01#8 } ∧
    exec .build4 s = .next { s with buf := [0x7E#8, 0x00#8, 0xD0#8, 0x01#8, 0x03#8, 0x2B#8, 0x7E#8], status := 0x01#8 } ∧
    exec .build5 s = .next { s with buf := [0x7E#8, 0x00#8, 0xD1#8, 0x00#8, 0x2E#8, 0x7E#8], status := 0x01#8 } ∧
    exec .build6 s = .next { s with buf := [0x7E#8, 0x00#8, 0xD2#8, 0x01#8, 0x00#8, 0x2C#8, 0x7E#8], status := 0x01#8 }) ∧
  (∀ (c : Command) (s t : State), exec c.build s = .next t →
    t.bufLen = (match c with
      | .startMeasurement => 8
      | .stopMeasurement => 6
      | .readMeasurement => 6
      | .readProductType => 7
      | .readSerialNumber => 7
      | .readFirmwareVersion => 6
      | .readStatusRegister => 7)) ∧
  ([Command.startMeasurement, .stopMeasurement, .readMeasurement, .readProductType, .readSerialNumber,
    .readFirmwareVersion, .readStatusRegister].map Command.expectedResponse = [7, 7, 47, 16, 24, 14, 12]) ∧
  Command.readMeasurement.payloadBytes = 40

/-- 44_checksum.md R144: CHKVAL after BUILD always succeeds and leaves `BUF = ROM[c]`.
The spec marks R144 as derived. -/
def Obligations.BuildThenChkvalSucceeds : Prop :=
  ∀ (c : Command) (s : State), ∃ t, exec c.build s = .next t ∧ exec .chkval t = .next t ∧
    t.status = 0x01#8 ∧ s.rom c.index = some t.buf

/-- 30_encoding.md R61, R67, 44_checksum.md R142: every ROM frame has its markers, address `00`, a length byte that counts the payload, the
checksum of the bytes between, and no reserved byte between the markers.
The checksum law is the spec's decision D12 (general knowledge, G1). -/
def Obligations.RomFramesFollowTheRequestLayout : Prop :=
  Config.frameRom.length = 7 ∧
  ∀ f ∈ Config.frameRom,
    f[0]? = some 0x7E#8 ∧ f[1]? = some 0x00#8 ∧ f[3]? = some (BitVec.ofNat 8 (f.length - 6)) ∧
    f[f.length - 2]? = some (chk (slice f 1 (f.length - 2))) ∧ f[f.length - 1]? = some 0x7E#8 ∧
    (∀ b ∈ slice f 1 (f.length - 1), isReserved b = false) ∧
    (∀ command ∈ f[2]?, f = frameOf (requestBody 0x00#8 command (slice f 4 (f.length - 2))))

/-! ## De-stuffing -/

/-- 41_destuff.md R100: the model's `replace2` is the loop the rule writes out; occurrences of `a b` do not overlap.
The clause on overlap is the sentence R100 itself marks as derived.
The spec's decision D8. -/
def Obligations.ReplaceIsTheLoopOfItsRule : Prop :=
  (∀ (s : Seq) (a b c : Byte), replace2 a b c s = replace2Loop s a b c s.length 0 []) ∧
  (∀ (s : Seq) (a b : Byte) (i : Nat), a ≠ b → s[i]? = some a → s[i + 1]? = some b → s[i + 1]? ≠ some a)

/-- 41_destuff.md R102: `esc_err` by positions.
The spec's decision D9. -/
def Obligations.EscErrByPositions : Prop :=
  ∀ s : Seq, escErr s = true ↔ ∃ i, i < s.length ∧ s[i]? = some 0x7D#8 ∧
    (i + 1 = s.length ∨
      ∃ c, s[i + 1]? = some c ∧ c ≠ 0x5E#8 ∧ c ≠ 0x5D#8 ∧ c ≠ 0x31#8 ∧ c ≠ 0x33#8)

/-- 41_destuff.md R104: `casc` by positions, and as containment.
The spec's decision D10. -/
def Obligations.CascByPositions : Prop :=
  ∀ s : Seq, (casc s = true ↔ ∃ i, s[i]? = some 0x7D#8 ∧ s[i + 1]? = some 0x5D#8 ∧
      (s[i + 2]? = some 0x31#8 ∨ s[i + 2]? = some 0x33#8)) ∧
    (casc s = true ↔ contains s [0x7D#8, 0x5D#8, 0x31#8] ∨ contains s [0x7D#8, 0x5D#8, 0x33#8])

/-- 41_destuff.md R103: DESTUFF, its result and its error, in every state. -/
def Obligations.DestuffOperation : Prop :=
  ∀ s : State,
    (escErr s.buf = true → exec .destuff s = .next { s with status := 0x04#8 }) ∧
    (escErr s.buf = false → exec .destuff s =
      .next { s with buf := destuff4 s.buf, status := if casc s.buf then 0x41#8 else 0x01#8 })

/-- 41_destuff.md R106 law 1 and R107: input without `7D` is returned unchanged, unescaped `7E`, `11` and `13` included.
The spec marks both as derived. -/
def Obligations.DestuffWithoutEscapeByteChangesNothing : Prop :=
  ∀ s : State, 0x7D#8 ∉ s.buf → destuff4 s.buf = s.buf ∧ exec .destuff s = .next { s with status := 0x01#8 }

/-- 41_destuff.md R105: the single pass is defined exactly on ESC-clean input.
The spec marks R105 as derived. -/
def Obligations.SinglePassIsDefinedOnCleanInput : Prop :=
  ∀ s : Seq, destuff1 s = none ↔ escErr s = true

/-- 41_destuff.md R106 law 3: on ESC-clean input the four substitutions agree with the single pass exactly when there is no cascade.
The spec marks R106 as derived. -/
def Obligations.FourPassesAreOnePassIffNoCascade : Prop :=
  ∀ s : Seq, escErr s = false → (destuff1 s = some (destuff4 s) ↔ casc s = false)

/-- 41_destuff.md R106 law 4: stuffed content is ESC-clean, and the single pass undoes stuffing.
The spec marks R106 as derived. -/
def Obligations.SinglePassUndoesStuffing : Prop :=
  ∀ p : Seq, escErr (stuff p) = false ∧ destuff1 (stuff p) = some p

/-- 41_destuff.md R106 law 5: the four substitutions undo stuffing exactly when the content has neither `7D 31` nor `7D 33`, which is exactly
when the stuffed form has no cascade.
The spec marks R106 as derived. -/
def Obligations.DestuffUndoesStuffingIffNoCascade : Prop :=
  ∀ p : Seq, (destuff4 (stuff p) = p ↔ ¬ cascades p) ∧ (casc (stuff p) = true ↔ cascades p)

/-- 41_destuff.md R106 law 6: de-stuffing never lengthens, and keeps the length exactly when nothing was found, changing nothing then.
The spec marks R106 as derived. -/
def Obligations.DestuffNeverLengthens : Prop :=
  ∀ s : Seq, (destuff4 s).length ≤ s.length ∧
    ((destuff4 s).length = s.length ↔ ¬ contains s [0x7D#8, 0x5E#8] ∧ ¬ contains s [0x7D#8, 0x5D#8] ∧
      ¬ contains s [0x7D#8, 0x31#8] ∧ ¬ contains s [0x7D#8, 0x33#8]) ∧
    ((destuff4 s).length = s.length → destuff4 s = s)

/-- 41_destuff.md R101, R106 laws 7 and 8, on the spec's own sequences: the order of the substitutions, the cascade, that the function is
neither idempotent nor injective, and that a result may be an escape pattern. -/
def Obligations.DestuffOnTheSpecsSequences : Prop :=
  destuff4 [] = [] ∧ destuff4 [0x7D#8, 0x5D#8, 0x5E#8] = [0x7D#8, 0x5E#8] ∧
  destuff4 [0x7D#8, 0x5E#8] = [0x7E#8] ∧ destuff4 [0x7E#8] = [0x7E#8] ∧
  destuff4 [0x7D#8, 0x5D#8, 0x31#8] = [0x11#8] ∧ destuff4 [0x7D#8, 0x5D#8, 0x33#8] = [0x13#8] ∧
  destuff4 [0x7D#8, 0x5D#8, 0x5D#8] = [0x7D#8, 0x5D#8] ∧
  escErr [0x7D#8, 0x7D#8, 0x5E#8] = true ∧ destuff4 [0x7D#8, 0x7D#8, 0x5E#8] = [0x7D#8, 0x7E#8]

/-- The model's choice (log 4) after 30_encoding.md R63 and 41_destuff.md R101: each row of the escape table runs as its substitution on
`BUF`, nothing else changed; and DESTUFF of ESC-clean input is the four rows in order, and then its `STATUS`. -/
def Obligations.EscapeRowsAreTheSubstitutions : Prop :=
  (∀ s : State, exec .esc7E s = .next { s with buf := replace2 0x7D#8 0x5E#8 0x7E#8 s.buf } ∧
    exec .esc7D s = .next { s with buf := replace2 0x7D#8 0x5D#8 0x7D#8 s.buf } ∧
    exec .esc11 s = .next { s with buf := replace2 0x7D#8 0x31#8 0x11#8 s.buf } ∧
    exec .esc13 s = .next { s with buf := replace2 0x7D#8 0x33#8 0x13#8 s.buf }) ∧
  (∀ s : State, escErr s.buf = false → ∃ s1 s2 s3 s4, exec .esc7E s = .next s1 ∧ exec .esc7D s1 = .next s2 ∧
    exec .esc11 s2 = .next s3 ∧ exec .esc13 s3 = .next s4 ∧
    exec .destuff s = .next { s4 with status := if casc s.buf then 0x41#8 else 0x01#8 })

/-! ## Stuffing -/

/-- 43_stuff.md R130: byte by byte, the lengths, and what the output holds. -/
def Obligations.StuffedContent : Prop :=
  (∀ (b : Byte) (p : Seq), stuff (b :: p) =
    (if b = 0x7E#8 then [0x7D#8, 0x5E#8] else if b = 0x7D#8 then [0x7D#8, 0x5D#8]
      else if b = 0x11#8 then [0x7D#8, 0x31#8] else if b = 0x13#8 then [0x7D#8, 0x33#8] else [b]) ++ stuff p) ∧
  stuff [] = [] ∧
  (∀ p : Seq, (stuff p).length = p.length + reservedCount p ∧ p.length ≤ (stuff p).length ∧
    (stuff p).length ≤ 2 * p.length ∧
    0x7E#8 ∉ stuff p ∧ 0x11#8 ∉ stuff p ∧ 0x13#8 ∉ stuff p ∧
    (∀ i, (stuff p)[i]? = some 0x7D#8 → ∃ c, (stuff p)[i + 1]? = some c ∧ isContinuation c = true) ∧
    escErr (stuff p) = false)

/-- 43_stuff.md R131: STUFF, its result and its overflow, in every state; no overflow from a buffer at most half full.
The spec's decision D11. -/
def Obligations.StuffOperation : Prop :=
  ∀ s : State,
    ((stuff s.buf).length ≤ Config.bufCap → exec .stuff s = .next { s with buf := stuff s.buf, status := 0x01#8 }) ∧
    (Config.bufCap < (stuff s.buf).length → exec .stuff s = .next { s with status := 0x10#8 }) ∧
    (s.bufLen ≤ Config.bufCap / 2 → exec .stuff s = .next { s with buf := stuff s.buf, status := 0x01#8 })

/-- 43_stuff.md R132: STUFF then DESTUFF gives the buffer back with `STATUS = 01` when it holds neither `7D 31` nor `7D 33`; otherwise
`STATUS = 41`, and each `7D 31` has become `11` and each `7D 33` has become `13`.
The spec marks R132 as derived. -/
def Obligations.StuffThenDestuff : Prop :=
  ∀ s : State, (stuff s.buf).length ≤ Config.bufCap → ∃ t u, exec .stuff s = .next t ∧ exec .destuff t = .next u ∧
    (¬ cascades s.buf → u = { s with status := 0x01#8 }) ∧
    (cascades s.buf → u.buf ≠ s.buf ∧
      u = { s with buf := replace2 0x7D#8 0x33#8 0x13#8 (replace2 0x7D#8 0x31#8 0x11#8 s.buf), status := 0x41#8 })

/-! ## Trimming and the receive transform -/

/-- 42_trim_transform.md R120, R121: TRIM in every state; the bytes kept are those at index 5 to `n - 3`. -/
def Obligations.TrimOperation : Prop :=
  ∀ s : State,
    (s.bufLen < 7 → exec .trim s = .next { s with status := 0x02#8 }) ∧
    (7 ≤ s.bufLen → ∃ t, exec .trim s = .next { s with buf := t, status := 0x01#8 } ∧
      t.length = s.bufLen - 7 ∧ ∀ i, i < t.length → t[i]? = s.readByte (i + 5))

/-- 42_trim_transform.md R122: XFORM in every state, its two errors in their order. -/
def Obligations.XformOperation : Prop :=
  ∀ s : State,
    (escErr s.buf = true → exec .xform s = .next { s with status := 0x04#8 }) ∧
    (escErr s.buf = false → (destuff4 s.buf).length < 7 → exec .xform s = .next { s with status := 0x02#8 }) ∧
    (escErr s.buf = false → 7 ≤ (destuff4 s.buf).length → exec .xform s =
      .next { s with buf := slice (destuff4 s.buf) 5 ((destuff4 s.buf).length - 2),
                     status := if casc s.buf then 0x41#8 else 0x01#8 })

/-- 42_trim_transform.md R123: XFORM against DESTUFF and then TRIM.
The spec marks R123 as derived. -/
def Obligations.XformIsDestuffThenTrim : Prop :=
  ∀ s : State, escErr s.buf = false → ∃ x d t, exec .xform s = .next x ∧ exec .destuff s = .next d ∧
    exec .trim d = .next t ∧ d.buf = destuff4 s.buf ∧
    (7 ≤ (destuff4 s.buf).length → x.buf = t.buf ∧ t.status = 0x01#8 ∧
      x.status = (if casc s.buf then 0x41#8 else 0x01#8)) ∧
    ((destuff4 s.buf).length < 7 → t.status = 0x02#8 ∧ t.buf = destuff4 s.buf ∧ x.status = 0x02#8 ∧ x.buf = s.buf)

/-- 42_trim_transform.md R124: the payload sizes XFORM delivers for the expected responses.
The spec marks R124 as derived. -/
def Obligations.XformPayloadSizes : Prop :=
  ([Command.startMeasurement, .stopMeasurement, .readMeasurement, .readProductType, .readSerialNumber,
    .readFirmwareVersion, .readStatusRegister].map Command.payloadBytes = [0, 0, 40, 9, 17, 7, 5]) ∧
  (∀ (c : Command) (s : State) (inner : Seq), s.buf = 0x7E#8 :: (inner ++ [0x7E#8]) →
    (∀ b ∈ inner, isReserved b = false) → s.bufLen = c.expectedResponse →
    ∃ t, exec .xform s = .next { s with buf := t, status := 0x01#8 } ∧ t.length = c.payloadBytes)

/-- 20_memory.md R53: TRIM uses only the bytes at index 5 to `n - 3`, CHKVAL only those at 1 to `n - 2`.
The spec marks R53 as derived. -/
def Obligations.PositionsTheOperationsUse : Prop :=
  (∀ s u t : State, 7 ≤ s.bufLen → u.bufLen = s.bufLen → (∀ a, 5 ≤ a → a + 3 ≤ s.bufLen → u.readByte a = s.readByte a) →
    exec .trim s = .next t → exec .trim u = .next { u with buf := t.buf, status := t.status }) ∧
  (∀ s u t : State, 3 ≤ s.bufLen → u.bufLen = s.bufLen → (∀ a, 1 ≤ a → a + 2 ≤ s.bufLen → u.readByte a = s.readByte a) →
    exec .chkval s = .next t → exec .chkval u = .next { u with status := t.status })

/-! ## The checksum -/

/-- 44_checksum.md R141: the complement of the sum modulo 256, and the same by 8-bit wrap-around addition.
The spec's decision D12 (general knowledge, G1). -/
def Obligations.ChecksumIsTheComplementOfTheSum : Prop :=
  ∀ b : Seq, (chk b).toNat = 0xFF - (b.map BitVec.toNat).sum % 256 ∧ chk b = ~~~ (b.foldl (· + ·) 0x00#8) ∧
    chk [] = 0xFF#8

/-- 44_checksum.md R147: what `chk_ok` compares, the equivalent form by one sum, and the three-byte case.
The spec's decisions D12 and D13 (general knowledge, G1). -/
def Obligations.ChkOkComparesTheChecksum : Prop :=
  ∀ f : Seq, 3 ≤ f.length →
    (chkOk f = true ↔ f[f.length - 2]? = some (chk (slice f 1 (f.length - 2)))) ∧
    (chkOk f = true ↔ byteSum (slice f 1 (f.length - 1)) % 256 = 0xFF) ∧
    (f.length = 3 → (chkOk f = true ↔ f[1]? = some 0xFF#8))

/-- 44_checksum.md R143: CHKVAL in every state; `BUF` is the same in every case.
The spec's decisions D12 and D13. -/
def Obligations.ChkvalOperation : Prop :=
  ∀ s : State,
    (s.bufLen < 3 → exec .chkval s = .next { s with status := 0x02#8 }) ∧
    (3 ≤ s.bufLen → chkOk s.buf = false → exec .chkval s = .next { s with status := 0x08#8 }) ∧
    (3 ≤ s.bufLen → chkOk s.buf = true → exec .chkval s = .next { s with status := 0x01#8 })

/-- 44_checksum.md R145: XFORMV in every state, its three errors in their order.
The spec's decision D14. -/
def Obligations.XformvOperation : Prop :=
  ∀ s : State,
    (escErr s.buf = true → exec .xformv s = .next { s with status := 0x04#8 }) ∧
    (escErr s.buf = false → (destuff4 s.buf).length < 7 → exec .xformv s = .next { s with status := 0x02#8 }) ∧
    (escErr s.buf = false → 7 ≤ (destuff4 s.buf).length → chkOk (destuff4 s.buf) = false →
      exec .xformv s = .next { s with status := 0x08#8 }) ∧
    (escErr s.buf = false → 7 ≤ (destuff4 s.buf).length → chkOk (destuff4 s.buf) = true → exec .xformv s =
      .next { s with buf := slice (destuff4 s.buf) 5 ((destuff4 s.buf).length - 2),
                     status := if casc s.buf then 0x41#8 else 0x01#8 })

/-- 44_checksum.md R145, corner cases: XFORMV is XFORM, except that inputs XFORM accepts may be rejected with `ERR_CHK`.
The spec's decision D14. -/
def Obligations.XformvDiffersFromXformOnlyByErrChk : Prop :=
  ∀ s : State, exec .xformv s = exec .xform s ∨
    (exec .xformv s = .next { s with status := 0x08#8 } ∧ chkOk (destuff4 s.buf) = false ∧
      ∃ t, exec .xform s = .next t ∧ t.flagOk = true)

/-- 44_checksum.md R148 (a) and (b): one changed byte among `f[1]` to `f[n-2]` of a valid frame is detected; changed markers are not looked
at.
The spec marks R148 as derived. -/
def Obligations.OneChangedByteIsDetected : Prop :=
  (∀ (f : Seq) (i : Nat) (b : Byte), chkOk f = true → 1 ≤ i → i + 2 ≤ f.length → f[i]? ≠ some b →
    chkOk (f.set i b) = false) ∧
  (∀ (f : Seq) (first last : Byte), 3 ≤ f.length → chkOk ((f.set 0 first).set (f.length - 1) last) = chkOk f)

/-! ## Whole frames -/

/-- 30_encoding.md R66: how long the raw form of a frame of `n` bytes can be.
The spec marks R66 as derived. -/
def Obligations.RawFrameLength : Prop :=
  ∀ body : Seq, (frameOf body).length ≤ (rawFrameOf body).length ∧
    (rawFrameOf body).length ≤ 2 + 2 * ((frameOf body).length - 2)

/-- The end to end of 42_trim_transform.md R122, 44_checksum.md R145 and 30_encoding.md R62, R65: from the raw form of any response frame whose
content between the markers has neither `7D 31` nor `7D 33`, XFORM and XFORMV deliver exactly its payload, with `STATUS = 01`.
What a sender stuffs and sums is general knowledge in the spec (G1, G3). -/
def Obligations.CorrectResponseIsDelivered : Prop :=
  ∀ (s : State) (address command st len : Byte) (payload : Seq),
    s.buf = rawFrameOf (responseBody address command st len payload) →
    ¬ cascades (responseBody address command st len payload ++ [chk (responseBody address command st len payload)]) →
    exec .xformv s = .next { s with buf := payload, status := 0x01#8 } ∧
    exec .xform s = .next { s with buf := payload, status := 0x01#8 }

/-- 44_checksum.md R148 (c): in the raw form of a correctly built frame, cascades of which none takes in the checksum byte, fewer than 256 of
them, end XFORMV with `ERR_CHK`, or with `ERR_SHORT` when they shortened the frame to under 7 bytes; XFORM delivers such a frame with
`CASC`.
The spec marks R148 as derived. -/
def Obligations.CascadeInACorrectFrameIsCaught : Prop :=
  ∀ (s : State) (body : Seq), s.buf = rawFrameOf body → cascades body →
    ¬ (body.getLast? = some 0x7D#8 ∧ (chk body = 0x31#8 ∨ chk body = 0x33#8)) →
    cascadeCount s.buf < 256 →
    ((destuff4 s.buf).length < 7 → exec .xformv s = .next { s with status := 0x02#8 }) ∧
    (7 ≤ (destuff4 s.buf).length → exec .xformv s = .next { s with status := 0x08#8 } ∧
      ∃ t, exec .xform s = .next { s with buf := t, status := 0x41#8 })

/-- 70_reset_and_hazards.md R184: TRIM, XFORM and XFORMV after BUILD: `ERR_SHORT` for the 6-byte frames, one payload byte lost for the others;
CHKVAL is right for both.
The spec marks R184 as derived. -/
def Obligations.RequestFramesAreNotResponses : Prop :=
  ∀ (c : Command) (s t : State), exec c.build s = .next t →
    (t.bufLen = 6 → exec .trim t = .next { t with status := 0x02#8 } ∧ exec .xform t = .next { t with status := 0x02#8 } ∧
      exec .xformv t = .next { t with status := 0x02#8 }) ∧
    (7 ≤ t.bufLen → exec .trim t = .next { t with buf := (slice t.buf 4 (t.bufLen - 2)).drop 1 } ∧
      exec .xform t = exec .trim t ∧ exec .xformv t = exec .trim t) ∧
    exec .chkval t = .next t ∧
    (c = .startMeasurement → exec .trim t = .next { t with buf := [0x03#8] })

/-! ## Status, errors and frames of all the operations -/

/-- 10_state.md R25: after an operation exactly one of bits 0 to 5 is 1, `CASC` only with `OK` and only after the de-stuffing operations, bit 7
is 0; after reset all eight bits are 0.
The spec marks R25 as derived. -/
def Obligations.OneResultFlagAfterAnOperation : Prop :=
  State.reset.status = 0x00#8 ∧
  ∀ (i : Instr) (s t : State), i.format = .opWord → exec i s = .next t →
    resultBits t.status = 1 ∧ t.status.getLsbD 7 = false ∧
    (t.flagCasc = true → t.flagOk = true ∧ (i = .destuff ∨ i = .xform ∨ i = .xformv)) ∧
    t.status ∈ [0x01#8, 0x02#8, 0x04#8, 0x08#8, 0x10#8, 0x20#8, 0x41#8]

/-- 10_state.md R24: the values each operation can leave in `STATUS`, and that no operation reads `STATUS`.
The spec's decision D6. -/
def Obligations.FlagsEachOperationCanSet : Prop :=
  (∀ (i : Instr) (s t : State), exec i s = .next t →
    (∀ c : Command, i = c.build → t.status = 0x01#8) ∧
    (i = .destuff → t.status ∈ [0x01#8, 0x41#8, 0x04#8]) ∧
    (i = .trim → t.status ∈ [0x01#8, 0x02#8]) ∧
    (i = .xform → t.status ∈ [0x01#8, 0x41#8, 0x04#8, 0x02#8]) ∧
    (i = .stuff → t.status ∈ [0x01#8, 0x10#8]) ∧
    (i = .chkval → t.status ∈ [0x01#8, 0x02#8, 0x08#8]) ∧
    (i = .xformv → t.status ∈ [0x01#8, 0x41#8, 0x04#8, 0x02#8, 0x08#8]) ∧
    (∀ w, i = .illegal w → t.status = 0x20#8)) ∧
  (∀ (i : Instr) (s : State) (v : Byte), i.format = .opWord → exec i { s with status := v } = exec i s)

/-- 60_exceptions.md R164: an operation that ends with an error leaves everything but `STATUS`, and sets the one bit of the error.
The spec's decision D7. -/
def Obligations.ErrorLeavesAllButStatus : Prop :=
  ∀ (i : Instr) (s t : State), i.format = .opWord → exec i s = .next t → t.flagOk = false →
    t = { s with status := t.status } ∧ ∃ e : Err, t.status = e.status ∧
      t.status.toNat = 2 ^ e.bit ∧ t.flagCasc = false

/-- 60_exceptions.md R165: the first error that applies is the one reported, read back from `STATUS`.
The spec's decision D14. -/
def Obligations.ErrorPriority : Prop :=
  ∀ (i : Instr) (s t : State), i.format = .opWord → exec i s = .next t →
    (t.status = 0x20#8 ↔ ∃ w, i = .illegal w) ∧
    (t.status = 0x04#8 ↔ (i = .destuff ∨ i = .xform ∨ i = .xformv) ∧ escErr s.buf = true) ∧
    (t.status = 0x02#8 ↔ (i = .trim ∧ s.bufLen < 7) ∨ (i = .chkval ∧ s.bufLen < 3) ∨
      ((i = .xform ∨ i = .xformv) ∧ escErr s.buf = false ∧ (destuff4 s.buf).length < 7)) ∧
    (t.status = 0x08#8 ↔ (i = .chkval ∧ 3 ≤ s.bufLen ∧ chkOk s.buf = false) ∨
      (i = .xformv ∧ escErr s.buf = false ∧ 7 ≤ (destuff4 s.buf).length ∧ chkOk (destuff4 s.buf) = false)) ∧
    (t.status = 0x10#8 ↔ i = .stuff ∧ Config.bufCap < (stuff s.buf).length)

/-- 20_memory.md R44 "Every operation ends": every instruction answers a next state in every state, and touches neither the host's side
nor the ROM. R44 speaks of operations: that the four wire escapes answer a next state of their own is the model's choice (log 4).
The spec's decisions D19 and D23. -/
def Obligations.EveryInstructionCompletes : Prop :=
  ∀ (i : Instr) (s : State), ∃ t, exec i s = .next t ∧ t.script = s.script ∧ t.returned = s.returned ∧
    ∀ c, t.rom c = s.rom c

/-- The memory frame, after 10_state.md R22 and 60_exceptions.md R164: CHKVAL, an illegal word, and every operation that ends without `OK` leave
every byte of the buffer space and its length; a wire escape leaves `STATUS`. -/
def Obligations.BufferFrame : Prop :=
  ∀ (i : Instr) (s t : State), exec i s = .next t →
    ((i = .chkval ∨ (∃ w, i = .illegal w) ∨ (i.format = .opWord ∧ t.flagOk = false)) →
      t.bufLen = s.bufLen ∧ t.cells = s.cells ∧ ∀ a, t.readByte a = s.readByte a) ∧
    (i.format = .wireEscape → t.status = s.status)

/-! ## The whole machine -/

/-- The invariant of `Obligations.StepKeepsInvariant` holds at reset. -/
def Obligations.ResetSatisfiesInvariant : Prop := State.reset.Inv

/-- 10_state.md R22 "at all times" and R25: every step from a state whose buffer fits and whose `STATUS` is legal leaves such a state; the
buffer's cells stay canonical. The steps include those of the model's own entries: accesses by register number (log 6), the wire
entry (log 4) and the idle step (log 7). -/
def Obligations.StepKeepsInvariant : Prop :=
  ∀ s t : State, s.Inv → step s = .next t → t.Inv ∧ Memory.wf t.cells = true

/-- 10_state.md R24 and 70_reset_and_hazards.md R180: only an operation word and reset change `STATUS`, only reset makes it `00`; the buffer is
changed by no read. Accesses by register number are the model's form (log 6), the wire entry is its own (log 4). -/
def Obligations.OnlyOperationsAndResetWriteStatus : Prop :=
  ∀ (s t : State) (x : Txn) (rest : List Txn), s.script = x :: rest → step s = .next t →
    (x.isOp = false → x ≠ .reset → t.status = s.status) ∧
    (t.status = 0x00#8 → s.status ≠ 0x00#8 → x = .reset) ∧
    (x = .readBuf ∨ x = .readStatus ∨ (∃ n, x = .regRead n) → t.buf = s.buf)

/-- 70_reset_and_hazards.md R192, 20_memory.md R44: from every state, a script of defined transactions is performed to its end, one transaction
a step, and a good state stays good. Among the defined transactions is a read of `BUF_LEN` on its own (log 6, DEDUCED).
The spec's decisions D19 and D23. -/
def Obligations.DefinedScriptRunsToItsEnd : Prop :=
  ∀ s : State, definedScript s.script → ∃ t, core.run s.script.length s = .next t ∧ t.script = [] ∧ (s.Inv → t.Inv)

/-- 20_memory.md R45: transactions take effect in their order, and what comes later is not seen by what comes before. Among the
defined transactions is a read of `BUF_LEN` on its own (log 6, DEDUCED).
The spec's decision D19. -/
def Obligations.TransactionsActInOrder : Prop :=
  ∀ (s : State) (first later : List Txn), definedScript first → ∃ t,
    core.run first.length { s with script := first } = .next t ∧
    core.run first.length { s with script := first ++ later } = .next { t with script := later } ∧
    core.run (first.length + later.length) { s with script := first ++ later } =
      core.run later.length { t with script := later }
end

