-- ==== Sys2Proof/Laws/Codec.lean ====
section
/-! SUPPORT. The small lemmas of the functions on byte sequences. -/

namespace Sys2Proof.Machine

section Replace2
variable (a b c : Byte)

@[simp] theorem replace2_nil : replace2 a b c [] = [] := rfl
@[simp] theorem replace2_single (x : Byte) : replace2 a b c [x] = [x] := rfl

/-- An occurrence at the front is replaced. -/
@[simp] theorem replace2_hit (rest : Seq) : replace2 a b c (a :: b :: rest) = c :: replace2 a b c rest := by
  simp [replace2]

/-- Where no occurrence stands at the front, the front byte is copied. -/
theorem replace2_miss {x y : Byte} (h : ¬ (x = a ∧ y = b)) (rest : Seq) :
    replace2 a b c (x :: y :: rest) = x :: replace2 a b c (y :: rest) := by
  simp [replace2, h]

/-- A byte that opens no occurrence is copied. -/
@[simp] theorem replace2_cons_ne {x : Byte} (h : x ≠ a) (rest : Seq) :
    replace2 a b c (x :: rest) = x :: replace2 a b c rest := by
  cases rest with
  | nil => rfl
  | cons y rest => exact replace2_miss a b c (fun e => h e.1) rest

/-- The output is no longer than the input. -/
theorem replace2_length_le (s : Seq) : (replace2 a b c s).length ≤ s.length := by
  fun_induction replace2 a b c s with
  | case1 => simp
  | case2 => simp
  | case3 x y rest h ih => simp; omega
  | case4 x y rest h ih => simp at ih ⊢; omega

end Replace2

@[simp] theorem destuff4_nil : destuff4 [] = [] := rfl

section EscErr
@[simp] theorem escErr_nil : escErr [] = false := rfl
@[simp] theorem escErr_single (x : Byte) : escErr [x] = (x == 0x7D#8) := rfl
theorem escErr_cons_cons (x y : Byte) (rest : Seq) :
    escErr (x :: y :: rest) = ((x == 0x7D#8 && !isContinuation y) || escErr (y :: rest)) := rfl

/-- A byte other than `7D` in front adds no error. -/
@[simp] theorem escErr_cons_ne {x : Byte} (h : x ≠ 0x7D#8) (rest : Seq) : escErr (x :: rest) = escErr rest := by
  cases rest with
  | nil => simp [escErr, h]
  | cons y rest => simp [escErr_cons_cons, h]

/-- A continuation byte is no escape byte, so a valid pair in front adds no error. -/
theorem escErr_pair {y : Byte} (h : isContinuation y = true) (rest : Seq) :
    escErr (0x7D#8 :: y :: rest) = escErr rest := by
  have hy : y ≠ 0x7D#8 := by rintro rfl; exact absurd h (by decide)
  simp [escErr_cons_cons, h, hy]
end EscErr

section Casc
@[simp] theorem casc_nil : casc [] = false := rfl
theorem casc_cons (x : Byte) (rest : Seq) : casc (x :: rest) = (cascHead (x :: rest) || casc rest) := rfl

/-- A byte other than `7D` in front opens no cascade. -/
@[simp] theorem casc_cons_ne {x : Byte} (h : x ≠ 0x7D#8) (rest : Seq) : casc (x :: rest) = casc rest := by
  have : cascHead (x :: rest) = false := by
    rcases rest with _ | ⟨y, _ | ⟨z, rest⟩⟩ <;> simp [cascHead, h]
  simp [casc_cons, this]
end Casc

section Stuff
@[simp] theorem stuff_nil : stuff [] = [] := rfl
@[simp] theorem stuff_cons (b : Byte) (rest : Seq) : stuff (b :: rest) = stuffByte b ++ stuff rest := rfl

/-- Stuffing works byte by byte, with no context (43_stuff.md R130). -/
theorem stuff_append (p q : Seq) : stuff (p ++ q) = stuff p ++ stuff q := by
  induction p with
  | nil => rfl
  | cons b rest ih => simp [ih]

/-- A byte stuffs to two bytes when it is reserved and to itself otherwise. -/
theorem stuffByte_cases (b : Byte) :
    b = 0x7E#8 ∧ stuffByte b = [0x7D#8, 0x5E#8] ∨ b = 0x7D#8 ∧ stuffByte b = [0x7D#8, 0x5D#8] ∨
    b = 0x11#8 ∧ stuffByte b = [0x7D#8, 0x31#8] ∨ b = 0x13#8 ∧ stuffByte b = [0x7D#8, 0x33#8] ∨
    (b ≠ 0x7E#8 ∧ b ≠ 0x7D#8 ∧ b ≠ 0x11#8 ∧ b ≠ 0x13#8) ∧ stuffByte b = [b] := by
  by_cases h1 : b = 0x7E#8
  · exact .inl ⟨h1, by rw [h1]; rfl⟩
  by_cases h2 : b = 0x7D#8
  · exact .inr (.inl ⟨h2, by rw [h2]; rfl⟩)
  by_cases h3 : b = 0x11#8
  · exact .inr (.inr (.inl ⟨h3, by rw [h3]; rfl⟩))
  by_cases h4 : b = 0x13#8
  · exact .inr (.inr (.inr (.inl ⟨h4, by rw [h4]; rfl⟩)))
  exact .inr (.inr (.inr (.inr ⟨⟨h1, h2, h3, h4⟩, by simp [stuffByte, h1, h2, h3, h4]⟩)))
end Stuff

section Slice
variable (s : Seq) (a b i : Nat)

theorem slice_length : (slice s a b).length = min b s.length - a := by simp [slice]

/-- An element of a range is the element of the sequence at the shifted index. -/
theorem slice_getElem? (h : a + i < b) : (slice s a b)[i]? = s[a + i]? := by
  simp [slice, h]
end Slice

/-- Trimming removes seven bytes (42_trim_transform.md R120). -/
theorem trim_length (s : Seq) : (trim s).length = s.length - 7 := by
  simp only [trim, slice_length, Config.hdrLen, Config.tlrLen]; omega

/-- Containment is the library's "is an infix of", which can be decided. -/
theorem contains_iff_infix (s p : Seq) : contains s p ↔ p <:+: s :=
  ⟨fun ⟨a, b, h⟩ => ⟨a, b, h.symm⟩, fun ⟨a, b, h⟩ => ⟨a, b, h.symm⟩⟩

section ByteSum
@[simp] theorem byteSum_nil : byteSum [] = 0 := rfl
@[simp] theorem byteSum_cons (b : Byte) (rest : Seq) : byteSum (b :: rest) = b.toNat + byteSum rest := rfl

theorem byteSum_append (p q : Seq) : byteSum (p ++ q) = byteSum p + byteSum q := by
  induction p with
  | nil => simp
  | cons b rest ih => simp [ih, Nat.add_assoc]

/-- The checksum and the sum's low byte add up to `FF` (44_checksum.md R141). -/
theorem chk_toNat (b : Seq) : (chk b).toNat = 255 - byteSum b % 256 := by
  have : byteSum b % 256 < 256 := Nat.mod_lt _ (by decide)
  simp only [chk, BitVec.toNat_ofNat]
  omega
end ByteSum

end Sys2Proof.Machine
end

