-- ==== Sys2Proof/Laws/Config.lean ====
section
/-! SUPPORT. What is known of the parameters. -/

namespace Sys2Proof

/-- The capacity is at least 92 (00_scope.md R6); nothing else is known of it. -/
theorem Config.bufCap_ge : 92 ≤ Config.bufCap := Nat.le_add_left 92 Config.bufCapExtra

/-- Every ROM frame fits any buffer (40_frame_build.md R90: "at most 8 bytes"). -/
theorem Config.frameRom_length_le : ∀ f ∈ Config.frameRom, f.length ≤ 8 := by decide

end Sys2Proof
end

