-- ==== Sys2Proof/Laws/State.lean ====
section
/-! SUPPORT. One lemma per field per update of the state. -/

namespace Sys2Proof.Machine

section WriteBuf
variable (s : State) (t : Seq)
@[simp] theorem State.writeBuf_buf : (s.writeBuf t).buf = t := rfl
@[simp] theorem State.writeBuf_bufLen : (s.writeBuf t).bufLen = t.length := rfl
@[simp] theorem State.writeBuf_status : (s.writeBuf t).status = s.status := rfl
@[simp] theorem State.writeBuf_script : (s.writeBuf t).script = s.script := rfl
@[simp] theorem State.writeBuf_returned : (s.writeBuf t).returned = s.returned := rfl
/-- Writing back what is there changes nothing. -/
@[simp] theorem State.writeBuf_self : s.writeBuf s.buf = s := rfl
end WriteBuf

section SetStatus
variable (s : State) (v : Byte)
@[simp] theorem State.setStatus_buf : (s.setStatus v).buf = s.buf := rfl
@[simp] theorem State.setStatus_bufLen : (s.setStatus v).bufLen = s.bufLen := rfl
@[simp] theorem State.setStatus_status : (s.setStatus v).status = v := rfl
@[simp] theorem State.setStatus_script : (s.setStatus v).script = s.script := rfl
@[simp] theorem State.setStatus_returned : (s.setStatus v).returned = s.returned := rfl
end SetStatus

section Raise
variable (s : State) (e : Err)
@[simp] theorem State.raise_buf : (s.raise e).buf = s.buf := rfl
@[simp] theorem State.raise_bufLen : (s.raise e).bufLen = s.bufLen := rfl
@[simp] theorem State.raise_status : (s.raise e).status = e.status := rfl
@[simp] theorem State.raise_script : (s.raise e).script = s.script := rfl
@[simp] theorem State.raise_returned : (s.raise e).returned = s.returned := rfl
end Raise

section Complete
variable (s : State) (t : Seq) (c : Bool)
@[simp] theorem State.complete_buf : (s.complete t c).buf = t := rfl
@[simp] theorem State.complete_bufLen : (s.complete t c).bufLen = t.length := rfl
@[simp] theorem State.complete_status : (s.complete t c).status = okStatus c := rfl
@[simp] theorem State.complete_script : (s.complete t c).script = s.script := rfl
@[simp] theorem State.complete_returned : (s.complete t c).returned = s.returned := rfl
end Complete

section Reply
variable (s : State) (r : Reply)
@[simp] theorem State.reply_buf : (s.reply r).buf = s.buf := rfl
@[simp] theorem State.reply_bufLen : (s.reply r).bufLen = s.bufLen := rfl
@[simp] theorem State.reply_status : (s.reply r).status = s.status := rfl
@[simp] theorem State.reply_script : (s.reply r).script = s.script := rfl
@[simp] theorem State.reply_returned : (s.reply r).returned = s.returned ++ [r] := rfl
end Reply

section WithFetchWord
variable (s : State) (nbits w : Nat)
@[simp] theorem State.withFetchWord_buf : (s.withFetchWord nbits w).buf = s.buf := rfl
@[simp] theorem State.withFetchWord_status : (s.withFetchWord nbits w).status = s.status := rfl
@[simp] theorem State.withFetchWord_script : (s.withFetchWord nbits w).script = fetchTxn nbits w :: s.script := rfl
@[simp] theorem State.withFetchWord_returned : (s.withFetchWord nbits w).returned = s.returned := rfl
end WithFetchWord

/-- The ROM is the same in every state (10_state.md R27). -/
theorem State.rom_eq (s t : State) (c : Nat) : s.rom c = t.rom c := rfl

end Sys2Proof.Machine
end

