-- ==== Sys2Proof/Laws/Memory.lean ====
section
/-! SUPPORT. The buffer space as cells (20_memory.md R46): always in its one canonical form, and reading a cell is reading the
sequence. -/

namespace Sys2Proof.Machine

/-- Cells made from a sequence are canonical. -/
theorem cellsFrom_wf (a : Nat) (t : Seq) : Memory.wfFrom a (cellsFrom a t) = true := by
  induction t generalizing a with
  | nil => rfl
  | cons b rest ih => simp [cellsFrom, Memory.wfFrom, ih]

/-- The buffer of every state has canonical cells: every operation keeps the form, whatever it writes. -/
theorem State.cells_wf (s : State) : Memory.wf s.cells = true := cellsFrom_wf 0 s.buf

/-- At reset nothing is listed. -/
theorem State.reset_cells : State.reset.cells = [] := rfl

theorem cellsFrom_read (a i : Nat) (t : Seq) : Memory.read (cellsFrom a t) (a + i) = t[i]? := by
  induction t generalizing a i with
  | nil => rfl
  | cons b rest ih =>
    cases i with
    | zero => simp [Memory.read, cellsFrom]
    | succ k =>
      have := ih (a + 1) k
      have e : a + 1 + k = a + (k + 1) := by omega
      rw [e] at this
      simpa [Memory.read, cellsFrom, List.find?_cons, show ¬ a = a + (k + 1) by omega] using this

/-- A byte read through the cells is the byte of the sequence. -/
theorem State.cells_read (s : State) (a : Nat) : Memory.read s.cells a = s.readByte a := by
  have := cellsFrom_read 0 a s.buf
  rwa [Nat.zero_add] at this

theorem cellsFrom_injective (a : Nat) (t u : Seq) (h : cellsFrom a t = cellsFrom a u) : t = u := by
  induction t generalizing a u with
  | nil => cases u with
    | nil => rfl
    | cons => simp [cellsFrom] at h
  | cons b rest ih => cases u with
    | nil => simp [cellsFrom] at h
    | cons c more =>
      simp only [cellsFrom, List.cons.injEq, Prod.mk.injEq, true_and] at h
      rw [h.1, ih _ _ h.2]

/-- Equal cells are equal buffers. -/
theorem State.cells_injective {s t : State} (h : s.cells = t.cells) : s.buf = t.buf :=
  cellsFrom_injective 0 _ _ h

/-- After `BUF <- t`, every index reads the new sequence. -/
@[simp] theorem State.writeBuf_readByte (s : State) (t : Seq) (a : Nat) : (s.writeBuf t).readByte a = t[a]? := rfl

/-- Raising an error leaves every byte. -/
@[simp] theorem State.raise_readByte (s : State) (e : Err) (a : Nat) : (s.raise e).readByte a = s.readByte a := rfl

/-- A read by the host leaves every byte. -/
@[simp] theorem State.reply_readByte (s : State) (r : Reply) (a : Nat) : (s.reply r).readByte a = s.readByte a := rfl

end Sys2Proof.Machine
end

