-- ==== Sys2Proof/Laws/Ops.lean ====
section
/-! SUPPORT. What each shared operation can do, said once. -/

namespace Sys2Proof.Machine

@[simp] theorem settle_ok (s : State) (c : Bool) (t : Seq) : settle s c (.ok t) = .next (s.complete t c) := rfl
@[simp] theorem settle_error (s : State) (c : Bool) (e : Err) : settle s c (.error e) = .next (s.raise e) := rfl

/-- An operation ends with its result in `BUF`, or with its error raised. -/
theorem settle_cases {s u : State} {c : Bool} {r : Except Err Seq} (h : settle s c r = .next u) :
    (∃ t, r = .ok t ∧ u = s.complete t c) ∨ (∃ e, r = .error e ∧ u = s.raise e) := by
  cases r with
  | ok t => exact .inl ⟨t, rfl, by simpa using h.symm⟩
  | error e => exact .inr ⟨e, rfl, by simpa using h.symm⟩

/-! The five values an error leaves and the two of a normal end. -/

@[simp] theorem status_short : Err.short.status = 0x02#8 := rfl
@[simp] theorem status_esc : Err.esc.status = 0x04#8 := rfl
@[simp] theorem status_chk : Err.chk.status = 0x08#8 := rfl
@[simp] theorem status_ovf : Err.ovf.status = 0x10#8 := rfl
@[simp] theorem status_op : Err.op.status = 0x20#8 := rfl
@[simp] theorem okStatus_false : okStatus false = 0x01#8 := rfl
@[simp] theorem okStatus_true : okStatus true = 0x41#8 := rfl

/-! The pure results, by their tests. -/

theorem destuffResult_error {s : Seq} (h : escErr s = true) : destuffResult s = .error .esc := by
  simp [destuffResult, h]
theorem destuffResult_ok {s : Seq} (h : escErr s = false) : destuffResult s = .ok (destuff4 s) := by
  simp [destuffResult, h]
theorem trimResult_error {s : Seq} (h : s.length < 7) : trimResult s = .error .short := by
  simp [trimResult, h]
theorem trimResult_ok {s : Seq} (h : 7 ≤ s.length) : trimResult s = .ok (trim s) := by
  simp [trimResult, show ¬ s.length < 7 by omega]
theorem stuffResult_error {cap : Nat} {p : Seq} (h : cap < (stuff p).length) : stuffResult cap p = .error .ovf := by
  simp [stuffResult, h]
theorem stuffResult_ok {cap : Nat} {p : Seq} (h : (stuff p).length ≤ cap) : stuffResult cap p = .ok (stuff p) := by
  simp [stuffResult, show ¬ cap < (stuff p).length by omega]

/-! The pure result of an operation word and its warning, so that a proof about all of them is about `settle` once. -/

/-- The result of an operation word on the buffer; of a wire escape, nothing is said here. -/
def opResult : Instr → Seq → Except Err Seq
  | .build0, _ => .ok (romFrame 0)
  | .build1, _ => .ok (romFrame 1)
  | .build2, _ => .ok (romFrame 2)
  | .build3, _ => .ok (romFrame 3)
  | .build4, _ => .ok (romFrame 4)
  | .build5, _ => .ok (romFrame 5)
  | .build6, _ => .ok (romFrame 6)
  | .destuff, s => destuffResult s
  | .trim, s => trimResult s
  | .xform, s => xformResult s
  | .stuff, s => stuffResult Config.bufCap s
  | .chkval, s => chkvalResult s
  | .xformv, s => xformvResult s
  | .illegal _, _ => .error .op
  | .esc7E, s => .ok s
  | .esc7D, s => .ok s
  | .esc11, s => .ok s
  | .esc13, s => .ok s

/-- Whether an operation's normal end carries `CASC`. -/
def opCasc : Instr → Seq → Bool
  | .destuff, s => casc s
  | .xform, s => casc s
  | .xformv, s => casc s
  | _, _ => false

/-- Every operation word is its pure result, settled. -/
theorem exec_opWord {i : Instr} (h : i.format = .opWord) (s : State) :
    exec i s = settle s (opCasc i s.buf) (opResult i s.buf) := by
  cases i <;> first | rfl | exact absurd h (by decide)

/-- What a step can be: idle, or the next transaction performed. -/
theorem step_nil {s : State} (h : s.script = []) : step s = .next s := by simp [step, h, idle]
theorem step_cons {s : State} {t : Txn} {rest : List Txn} (h : s.script = t :: rest) :
    step s = perform t { s with script := rest } := by simp [step, h]

/-- What a load can do. -/
theorem hostLoad_fits {t : Seq} (h : t.length ≤ Config.bufCap) (s : State) : hostLoad t s = .next (s.writeBuf t) := by
  simp [hostLoad, h]
theorem hostLoad_over {t : Seq} (h : Config.bufCap < t.length) (s : State) :
    hostLoad t s = .refused (.loadOverCapacity t.length) := by
  simp [hostLoad, show ¬ t.length ≤ Config.bufCap by omega]

end Sys2Proof.Machine
end

