-- ==== Sys2Proof/Laws/PerInstr.lean ====
section
/-! SUPPORT. A statement made instruction by instruction: an encoding has the length of its format. -/

namespace Sys2Proof.Laws.EncodedLength

/-- One byte for an operation word (30_encoding.md R74), two for a wire escape (R63). -/
def Statement (i : Instr) : Prop :=
  (encode i).length = (match i.format with | .opWord => 1 | .wireEscape => 2)

theorem build0 : Statement .build0 := rfl
theorem build1 : Statement .build1 := rfl
theorem build2 : Statement .build2 := rfl
theorem build3 : Statement .build3 := rfl
theorem build4 : Statement .build4 := rfl
theorem build5 : Statement .build5 := rfl
theorem build6 : Statement .build6 := rfl
theorem destuff : Statement .destuff := rfl
theorem trim : Statement .trim := rfl
theorem xform : Statement .xform := rfl
theorem stuff : Statement .stuff := rfl
theorem chkval : Statement .chkval := rfl
theorem xformv : Statement .xformv := rfl
theorem illegal (w : Byte) : Statement (.illegal w) := rfl
theorem esc7E : Statement .esc7E := rfl
theorem esc7D : Statement .esc7D := rfl
theorem esc11 : Statement .esc11 := rfl
theorem esc13 : Statement .esc13 := rfl

end Sys2Proof.Laws.EncodedLength
end

