-- ==== Sys2Proof/Tests/Slice0.lean ====
section
/-! SUPPORT. Tests on words and vectors of the spec, and for every statement with hypotheses a state and operands that meet them. The
expected results are those of spec/95_test_vectors.md, by section and row. -/

namespace Sys2Proof.Tests
open Sys2Proof Sys2Proof.Machine

/-- The reset state with a buffer, a status and a script. -/
def st (buf : Seq) (status : Byte := 0x00#8) (script : List Txn := []) : State :=
  { State.reset with buf := buf, status := status, script := script }

/-- `BUF` and `STATUS` after one instruction. -/
def after (i : Instr) (buf : Seq) : Option (Seq × Byte) :=
  match exec i (st buf) with
  | .next t => some (t.buf, t.status)
  | .fault _ => none
  | .refused _ => none

/-! ## Well-formedness refuses an ill-formed term -/

theorem test_wf_refuses_each_defined_word_as_illegal : ∀ w ∈ definedWords, (Instr.illegal w).wf = false := by decide
theorem test_wf_accepts_an_undefined_word : (Instr.illegal 0x17#8).wf = true := by decide

/-! ## Decoding: words written out from 30_encoding.md R74, R75 (`opc` then `arg`) and R63 -/

theorem test_decode_build0 : decode .opWord [0b0001_0000#8] = .ok (.build0, []) := rfl
theorem test_decode_build1 : decode .opWord [0b0001_0001#8] = .ok (.build1, []) := rfl
theorem test_decode_build2 : decode .opWord [0b0001_0010#8] = .ok (.build2, []) := rfl
theorem test_decode_build3 : decode .opWord [0b0001_0011#8] = .ok (.build3, []) := rfl
theorem test_decode_build4 : decode .opWord [0b0001_0100#8] = .ok (.build4, []) := rfl
theorem test_decode_build5 : decode .opWord [0b0001_0101#8] = .ok (.build5, []) := rfl
theorem test_decode_build6 : decode .opWord [0b0001_0110#8] = .ok (.build6, []) := rfl
theorem test_decode_destuff : decode .opWord [0b0010_0000#8] = .ok (.destuff, []) := rfl
theorem test_decode_trim : decode .opWord [0b0011_0000#8] = .ok (.trim, []) := rfl
theorem test_decode_xform : decode .opWord [0b0100_0000#8] = .ok (.xform, []) := rfl
theorem test_decode_stuff : decode .opWord [0b0101_0000#8] = .ok (.stuff, []) := rfl
theorem test_decode_chkval : decode .opWord [0b0110_0000#8] = .ok (.chkval, []) := rfl
theorem test_decode_xformv : decode .opWord [0b0111_0000#8] = .ok (.xformv, []) := rfl
/-- The illegal words of 95_test_vectors.md 2.8, and P4's `48`. -/
theorem test_decode_illegal : ∀ w ∈ [0x00#8, 0x01#8, 0x0F#8, 0x17#8, 0x1F#8, 0x21#8, 0x2F#8, 0x31#8, 0x41#8, 0x48#8, 0x51#8, 0x61#8,
    0x71#8, 0x7F#8, 0x80#8, 0xF0#8, 0xFF#8], decodeWord w = .illegal w := by decide
theorem test_decode_esc7E : decode .wireEscape [0b0111_1101#8, 0b0101_1110#8] = .ok (.esc7E, []) := rfl
theorem test_decode_esc7D : decode .wireEscape [0b0111_1101#8, 0b0101_1101#8] = .ok (.esc7D, []) := rfl
theorem test_decode_esc11 : decode .wireEscape [0b0111_1101#8, 0b0011_0001#8] = .ok (.esc11, []) := rfl
theorem test_decode_esc13 : decode .wireEscape [0b0111_1101#8, 0b0011_0011#8] = .ok (.esc13, []) := rfl
theorem test_decode_refuses_by_name :
    decode .wireEscape [0x7D#8, 0x5F#8] = .error (.unknownContinuation 0x5F#8) ∧
    decode .wireEscape [0x7D#8] = .error .danglingEscape ∧ decode .wireEscape [0x7E#8, 0x5E#8] = .error (.notEscape 0x7E#8) ∧
    decode .opWord [] = .error .empty := ⟨rfl, rfl, rfl, rfl⟩
theorem test_table_rows : decodeTableWord 8 0x70 = some .xformv ∧ decodeTableWord 24 0x13 = some .build3 ∧
    decodeTableWord 16 0x15 = some .build5 ∧ decodeTableWord 16 0x7D33 = some .esc13 ∧
    decodeTableWord 16 0x7D5F = some (.illegal 0x5F#8) := by decide

/-! ## One step each, from the vectors -/

/-- 2.1, on `AA BB`. -/
theorem test_build0 : after .build0 [0xAA#8, 0xBB#8] =
    some ([0x7E#8, 0x00#8, 0x00#8, 0x02#8, 0x01#8, 0x03#8, 0xF9#8, 0x7E#8], 0x01#8) := by decide
theorem test_build1 : after .build1 [0xAA#8, 0xBB#8] =
    some ([0x7E#8, 0x00#8, 0x01#8, 0x00#8, 0xFE#8, 0x7E#8], 0x01#8) := by decide
theorem test_build2 : after .build2 [0xAA#8, 0xBB#8] =
    some ([0x7E#8, 0x00#8, 0x03#8, 0x00#8, 0xFC#8, 0x7E#8], 0x01#8) := by decide
theorem test_build3 : after .build3 [0xAA#8, 0xBB#8] =
    some ([0x7E#8, 0x00#8, 0xD0#8, 0x01#8, 0x00#8, 0x2E#8, 0x7E#8], 0x01#8) := by decide
theorem test_build4 : after .build4 [0xAA#8, 0xBB#8] =
    some ([0x7E#8, 0x00#8, 0xD0#8, 0x01#8, 0x03#8, 0x2B#8, 0x7E#8], 0x01#8) := by decide
theorem test_build5 : after .build5 [0xAA#8, 0xBB#8] =
    some ([0x7E#8, 0x00#8, 0xD1#8, 0x00#8, 0x2E#8, 0x7E#8], 0x01#8) := by decide
theorem test_build6 : after .build6 [0xAA#8, 0xBB#8] =
    some ([0x7E#8, 0x00#8, 0xD2#8, 0x01#8, 0x00#8, 0x2C#8, 0x7E#8], 0x01#8) := by decide
/-- 2.2 row 15: two cascades. -/
theorem test_destuff_cascades :
    after .destuff [0x01#8, 0x7D#8, 0x5D#8, 0x31#8, 0x02#8, 0x7D#8, 0x5D#8, 0x33#8, 0x03#8] =
    some ([0x01#8, 0x11#8, 0x02#8, 0x13#8, 0x03#8], 0x41#8) := by decide
/-- 2.2 row 24: a valid pair, then a dangling escape; nothing is replaced. -/
theorem test_destuff_dangling : after .destuff [0x00#8, 0x7D#8, 0x5E#8, 0x7D#8] =
    some ([0x00#8, 0x7D#8, 0x5E#8, 0x7D#8], 0x04#8) := by decide
/-- 2.3 row 5: markers are not checked. -/
theorem test_trim_eight : after .trim [0x00#8, 0x01#8, 0x02#8, 0x03#8, 0x04#8, 0x05#8, 0x06#8, 0x07#8] =
    some ([0x05#8], 0x01#8) := by decide
/-- 2.3 row 2: one byte short. -/
theorem test_trim_short : after .trim [0x7E#8, 0x00#8, 0x01#8, 0x00#8, 0xFE#8, 0x7E#8] =
    some ([0x7E#8, 0x00#8, 0x01#8, 0x00#8, 0xFE#8, 0x7E#8], 0x02#8) := by decide
/-- 2.4 row 7: a cascade in the payload. -/
theorem test_xform_cascade :
    after .xform [0x7E#8, 0x00#8, 0xD2#8, 0x00#8, 0x05#8, 0x00#8, 0x00#8, 0x7D#8, 0x5D#8, 0x31#8, 0x00#8, 0x7A#8, 0x7E#8] =
    some ([0x00#8, 0x00#8, 0x11#8, 0x00#8], 0x41#8) := by decide
/-- 2.4 row 10: eight raw bytes de-stuff to five; the raw frame stays. -/
theorem test_xform_short : after .xform [0x7E#8, 0x7D#8, 0x5E#8, 0x7D#8, 0x5E#8, 0x7D#8, 0x5E#8, 0x7E#8] =
    some ([0x7E#8, 0x7D#8, 0x5E#8, 0x7D#8, 0x5E#8, 0x7D#8, 0x5E#8, 0x7E#8], 0x02#8) := by decide
/-- 2.5 row 7: all four reserved bytes. -/
theorem test_stuff_all_four : after .stuff [0x01#8, 0x7E#8, 0x7D#8, 0x11#8, 0x13#8, 0x02#8] =
    some ([0x01#8, 0x7D#8, 0x5E#8, 0x7D#8, 0x5D#8, 0x7D#8, 0x31#8, 0x7D#8, 0x33#8, 0x02#8], 0x01#8) := by decide
/-- 2.5, overflow with `BUF_CAP = 92`: 46 bytes `7E` fit, 47 do not. -/
theorem test_stuff_overflow : stuffResult 92 (List.replicate 47 0x7E#8) = .error .ovf ∧
    stuffResult 92 (List.replicate 46 0x7E#8) = .ok (stuff (List.replicate 46 0x7E#8)) := ⟨rfl, rfl⟩
/-- 2.6, CHKVAL row 11: the sum wraps. -/
theorem test_chkval_wraps : after .chkval [0x7E#8, 0x01#8, 0xFF#8, 0xFF#8, 0x7E#8] =
    some ([0x7E#8, 0x01#8, 0xFF#8, 0xFF#8, 0x7E#8], 0x01#8) := by decide
/-- 2.6, CHKVAL row 8: a payload byte off by one. -/
theorem test_chkval_mismatch : after .chkval [0x7E#8, 0x00#8, 0xD2#8, 0x01#8, 0x01#8, 0x2C#8, 0x7E#8] =
    some ([0x7E#8, 0x00#8, 0xD2#8, 0x01#8, 0x01#8, 0x2C#8, 0x7E#8], 0x08#8) := by decide
/-- 2.4 and 2.6 row 3. -/
theorem test_xformv_status_answer :
    after .xformv [0x7E#8, 0x00#8, 0xD2#8, 0x00#8, 0x05#8, 0x00#8, 0x00#8, 0x00#8, 0x7D#8, 0x31#8, 0x00#8, 0x17#8, 0x7E#8] =
    some ([0x00#8, 0x00#8, 0x00#8, 0x11#8, 0x00#8], 0x01#8) := by decide
/-- 2.6, priority: seven bytes with a wrong checksum. -/
theorem test_xformv_wrong_checksum : after .xformv [0x7E#8, 0x00#8, 0x00#8, 0x00#8, 0x00#8, 0x00#8, 0x7E#8] =
    some ([0x7E#8, 0x00#8, 0x00#8, 0x00#8, 0x00#8, 0x00#8, 0x7E#8], 0x08#8) := by decide
/-- 2.8, on `AA BB`. -/
theorem test_illegal : after (.illegal 0x17#8) [0xAA#8, 0xBB#8] = some ([0xAA#8, 0xBB#8], 0x20#8) := by decide
/-- 2.2 row 7: the columns s1, s2, s3 and the result are the four rows of the escape table, one after the other. -/
theorem test_esc7E : after .esc7E [0x7E#8, 0x00#8, 0x7D#8, 0x5E#8, 0x7D#8, 0x5D#8, 0x7D#8, 0x31#8, 0x7D#8, 0x33#8, 0x7E#8] =
    some ([0x7E#8, 0x00#8, 0x7E#8, 0x7D#8, 0x5D#8, 0x7D#8, 0x31#8, 0x7D#8, 0x33#8, 0x7E#8], 0x00#8) := by decide
theorem test_esc7D : after .esc7D [0x7E#8, 0x00#8, 0x7E#8, 0x7D#8, 0x5D#8, 0x7D#8, 0x31#8, 0x7D#8, 0x33#8, 0x7E#8] =
    some ([0x7E#8, 0x00#8, 0x7E#8, 0x7D#8, 0x7D#8, 0x31#8, 0x7D#8, 0x33#8, 0x7E#8], 0x00#8) := by decide
theorem test_esc11 : after .esc11 [0x7E#8, 0x00#8, 0x7E#8, 0x7D#8, 0x7D#8, 0x31#8, 0x7D#8, 0x33#8, 0x7E#8] =
    some ([0x7E#8, 0x00#8, 0x7E#8, 0x7D#8, 0x11#8, 0x7D#8, 0x33#8, 0x7E#8], 0x00#8) := by decide
theorem test_esc13 : after .esc13 [0x7E#8, 0x00#8, 0x7E#8, 0x7D#8, 0x11#8, 0x7D#8, 0x33#8, 0x7E#8] =
    some ([0x7E#8, 0x00#8, 0x7E#8, 0x7D#8, 0x11#8, 0x13#8, 0x7E#8], 0x00#8) := by decide
/-- The host's side of one step: a placed word is run, a load that is too long is refused. -/
theorem test_step_runs_placed_word : step (State.reset.withFetchWord 8 0x50) = .next { State.reset with status := 0x01#8 } := rfl
theorem test_step_runs_wire_entry : step ((st [0x7D#8, 0x5E#8]).withFetchWord 16 0x7D5E) = .next (st [0x7E#8]) := rfl
/-- 30_encoding.md R75, R79: the mnemonics of a script have their words. -/
theorem test_mnemonic_words : [Mnemonic.build .startMeasurement, .build .readStatusRegister, .destuff, .trim, .xform, .stuff,
    .chkval, .xformv].map Mnemonic.word = [0x10#8, 0x16#8, 0x20#8, 0x30#8, 0x40#8, 0x50#8, 0x60#8, 0x70#8] := by decide

/-! ## Witnesses: a state and operands for the hypotheses of every statement that has some -/

/-- A buffer of `n` bytes `b`. -/
def fill (n : Nat) (b : Byte) : Seq := List.replicate n b

theorem stuff_fill_plain (n : Nat) : (stuff (fill n 0x00#8)).length = n := by
  induction n with
  | zero => rfl
  | succ n ih => simpa [fill, List.replicate_succ, stuffByte] using ih

theorem witness_Reset : (st [] 0x00#8 [.reset]).script = .reset :: [] := rfl
theorem witness_Load_full : (st [] 0x00#8 [.load (fill Config.bufCap 0x00#8)]).script = .load (fill Config.bufCap 0x00#8) :: [] ∧
    (fill Config.bufCap 0x00#8).length ≤ Config.bufCap := by simp [st, fill]
theorem witness_Load_over : (st [] 0x00#8 [.load (fill (Config.bufCap + 1) 0x00#8)]).script = .load (fill (Config.bufCap + 1) 0x00#8) :: [] ∧
    Config.bufCap < (fill (Config.bufCap + 1) 0x00#8).length := by simp [st, fill]
theorem witness_Reads : (st [] 0x00#8 [.readBuf]).script = .readBuf :: [] ∧ (st [] 0x00#8 [.readStatus]).script = .readStatus :: [] ∧
    (st [] 0x00#8 [.readBuf, .readBuf]).script = .readBuf :: .readBuf :: [] ∧
    (st [] 0x00#8 [.readStatus, .readStatus]).script = .readStatus :: .readStatus :: [] := ⟨rfl, rfl, rfl, rfl⟩
theorem witness_StepRunsWord : (st [] 0x00#8 [.op 0x17#8]).script = .op 0x17#8 :: [] ∧ (0x17#8 : Byte) ∉ definedWords := by decide
theorem witness_StepRunsPlaced : (Instr.illegal 0xFF#8).wf = true ∧ Instr.esc13.wf = true ∧ Instr.build0.wf = true := by decide
theorem witness_Idle : State.reset.script = [] := rfl
theorem witness_RegRead : ∀ n ∈ [0, 1, 2, 3, 4], (st [] 0x00#8 [.regRead n]).script = .regRead n :: [] := by decide
theorem witness_RegWrite : (st [] 0x00#8 [.regWrite 0 [0x10#8]]).script = .regWrite 0 [0x10#8] :: [] ∧
    (st [] 0x00#8 [.regWrite 0 []]).script = .regWrite 0 [] :: [] ∧ ([] : Seq).length ≠ 1 ∧
    (st [] 0x00#8 [.regWrite 1 []]).script = .regWrite 1 [] :: [] ∧ (st [] 0x00#8 [.regWrite 2 []]).script = .regWrite 2 [] :: [] ∧
    (st [] 0x00#8 [.regWrite 4 []]).script = .regWrite 4 [] :: [] := by decide
theorem witness_RegWrite_buf : (st [] 0x00#8 [.regWrite 3 (fill Config.bufCap 0x00#8)]).script = .regWrite 3 (fill Config.bufCap 0x00#8) :: [] ∧
    (fill Config.bufCap 0x00#8).length ≤ Config.bufCap ∧ Config.bufCap < (fill (Config.bufCap + 1) 0x00#8).length := by
  simp [st, fill]
theorem witness_DecodeOfEncode : (Instr.illegal 0x00#8).wf = true ∧ Instr.esc7E.wf = true := by decide
theorem witness_EncodeOfDecoded : decode .opWord [0x10#8, 0xAA#8] = .ok (.build0, [0xAA#8]) ∧
    decode .wireEscape [0x7D#8, 0x33#8, 0xAA#8] = .ok (.esc13, [0xAA#8]) := ⟨rfl, rfl⟩
theorem witness_EscapeTable : isReserved 0x13#8 = true := by decide
theorem witness_Build : ∃ t, exec Command.startMeasurement.build (st []) = .next t := ⟨_, rfl⟩
theorem witness_RomFrames : [0x7E#8, 0x00#8, 0xD2#8, 0x01#8, 0x00#8, 0x2C#8, 0x7E#8] ∈ Config.frameRom := by decide
theorem witness_ReplaceLoop : (0x7D#8 : Byte) ≠ 0x5E#8 ∧ ([0x7D#8, 0x5E#8] : Seq)[0]? = some 0x7D#8 ∧
    ([0x7D#8, 0x5E#8] : Seq)[0 + 1]? = some 0x5E#8 := by decide
theorem witness_Destuff : escErr (st [0x7D#8]).buf = true ∧ escErr (st [0x7D#8, 0x33#8]).buf = false := by decide
theorem witness_DestuffWithoutEscape : (0x7D#8 : Byte) ∉ (st [0x7E#8, 0x11#8, 0x13#8]).buf := by decide
theorem witness_FourPasses : escErr [0x7D#8, 0x5D#8, 0x31#8] = false ∧ escErr [0x7D#8, 0x5D#8] = false := by decide
theorem witness_NeverLengthens : (destuff4 [0x5E#8]).length = [0x5E#8].length := by decide
theorem witness_EscapeRows : escErr (st [0x7D#8, 0x5D#8, 0x31#8]).buf = false := by decide
theorem witness_Stuff_fits : (stuff (st (fill Config.bufCap 0x00#8)).buf).length ≤ Config.bufCap :=
  Nat.le_of_eq (stuff_fill_plain _)
theorem witness_Stuff_over : Config.bufCap < (stuff (st (0x7E#8 :: fill (Config.bufCap - 1) 0x00#8)).buf).length := by
  have := stuff_fill_plain (Config.bufCap - 1)
  have h := Config.bufCap_ge
  simp only [st, stuff_cons, List.length_append, this]
  simp [stuffByte]
  omega
theorem witness_StuffHalf : (st (fill (Config.bufCap / 2) 0x7E#8)).bufLen ≤ Config.bufCap / 2 := by simp [st, fill, State.bufLen]
theorem witness_StuffThenDestuff : ¬ cascades (st [0x31#8, 0x7D#8]).buf ∧ cascades (st [0x7D#8, 0x31#8]).buf ∧
    (stuff (st [0x7D#8, 0x31#8]).buf).length ≤ Config.bufCap ∧ (stuff (st [0x31#8, 0x7D#8]).buf).length ≤ Config.bufCap := by
  have h := Config.bufCap_ge
  refine ⟨?_, .inl ⟨[], [], rfl⟩, ?_, ?_⟩
  · simp only [cascades, contains_iff_infix]; decide
  · exact Nat.le_trans (by decide) h
  · exact Nat.le_trans (by decide) h
theorem witness_Trim : (st (fill 6 0x00#8)).bufLen < 7 ∧ 7 ≤ (st (fill 7 0x00#8)).bufLen := by decide
theorem witness_Xform : escErr (st [0x7D#8]).buf = true ∧ escErr (fill 6 0x00#8) = false ∧ (destuff4 (fill 6 0x00#8)).length < 7 ∧
    escErr (fill 7 0x00#8) = false ∧ 7 ≤ (destuff4 (fill 7 0x00#8)).length := by decide
theorem witness_PayloadSizes_least : (st (0x7E#8 :: (fill 5 0x00#8 ++ [0x7E#8]))).buf = 0x7E#8 :: (fill 5 0x00#8 ++ [0x7E#8]) ∧
    (∀ b ∈ fill 5 0x00#8, isReserved b = false) ∧
    (st (0x7E#8 :: (fill 5 0x00#8 ++ [0x7E#8]))).bufLen = Command.stopMeasurement.expectedResponse := by decide
theorem witness_PayloadSizes_most : (∀ b ∈ fill 45 0x00#8, isReserved b = false) ∧
    (st (0x7E#8 :: (fill 45 0x00#8 ++ [0x7E#8]))).bufLen = Command.readMeasurement.expectedResponse := by decide
/-- Other bytes outside the positions, the same bytes at them: `05` at index 5 of eight bytes. -/
theorem witness_Positions_trim :
    7 ≤ (st (fill 8 0x05#8)).bufLen ∧ (st [0x00#8, 0x01#8, 0x02#8, 0x03#8, 0x04#8, 0x05#8, 0x06#8, 0x07#8]).bufLen = (st (fill 8 0x05#8)).bufLen ∧
    (∀ a, 5 ≤ a → a + 3 ≤ (st (fill 8 0x05#8)).bufLen →
      (st [0x00#8, 0x01#8, 0x02#8, 0x03#8, 0x04#8, 0x05#8, 0x06#8, 0x07#8]).readByte a = (st (fill 8 0x05#8)).readByte a) ∧
    ∃ t, exec .trim (st (fill 8 0x05#8)) = .next t := by
  refine ⟨by decide, by decide, ?_, ⟨_, rfl⟩⟩
  intro a h1 h2
  have : a = 5 := by simp [st, fill, State.bufLen] at h2; omega
  subst this; decide
theorem witness_Positions_chkval :
    3 ≤ (st [0x7E#8, 0xFF#8, 0x7E#8]).bufLen ∧ (st [0x00#8, 0xFF#8, 0x00#8]).bufLen = (st [0x7E#8, 0xFF#8, 0x7E#8]).bufLen ∧
    (∀ a, 1 ≤ a → a + 2 ≤ (st [0x7E#8, 0xFF#8, 0x7E#8]).bufLen →
      (st [0x00#8, 0xFF#8, 0x00#8]).readByte a = (st [0x7E#8, 0xFF#8, 0x7E#8]).readByte a) ∧
    ∃ t, exec .chkval (st [0x7E#8, 0xFF#8, 0x7E#8]) = .next t := by
  refine ⟨by decide, by decide, ?_, ⟨_, rfl⟩⟩
  intro a h1 h2
  have : a = 1 := by simp [st, State.bufLen] at h2; omega
  subst this; decide
theorem witness_ChkOk : 3 ≤ [0x7E#8, 0xFF#8, 0x7E#8].length ∧ [0x7E#8, 0xFF#8, 0x7E#8].length = 3 := by decide
theorem witness_Chkval : (st (fill 2 0x7E#8)).bufLen < 3 ∧ chkOk (st [0x7E#8, 0x00#8, 0x7E#8]).buf = false ∧
    chkOk (st [0x7E#8, 0xFF#8, 0x7E#8]).buf = true ∧ 3 ≤ (st [0x7E#8, 0xFF#8, 0x7E#8]).bufLen := by decide
theorem witness_Xformv : escErr (fill 7 0x00#8) = false ∧ 7 ≤ (destuff4 (fill 7 0x00#8)).length ∧ chkOk (destuff4 (fill 7 0x00#8)) = false ∧
    chkOk (destuff4 [0x7E#8, 0x00#8, 0x00#8, 0x00#8, 0x00#8, 0xFF#8, 0x7E#8]) = true ∧
    7 ≤ (destuff4 [0x7E#8, 0x00#8, 0x00#8, 0x00#8, 0x00#8, 0xFF#8, 0x7E#8]).length ∧
    escErr [0x7E#8, 0x00#8, 0x00#8, 0x00#8, 0x00#8, 0xFF#8, 0x7E#8] = false := by decide
/-- The first and the last index of the range, 1 and `n - 2`. -/
theorem witness_OneChangedByte : chkOk [0x7E#8, 0x00#8, 0x01#8, 0x00#8, 0xFE#8, 0x7E#8] = true ∧
    4 + 2 ≤ [0x7E#8, 0x00#8, 0x01#8, 0x00#8, 0xFE#8, 0x7E#8].length ∧
    [0x7E#8, 0x00#8, 0x01#8, 0x00#8, 0xFE#8, 0x7E#8][1]? ≠ some 0x01#8 ∧
    [0x7E#8, 0x00#8, 0x01#8, 0x00#8, 0xFE#8, 0x7E#8][4]? ≠ some 0xFF#8 := by decide
theorem witness_Delivered : (st (rawFrameOf (responseBody 0x00#8 0xD2#8 0x00#8 0x02#8 [0x11#8, 0x7E#8]))).buf =
      rawFrameOf (responseBody 0x00#8 0xD2#8 0x00#8 0x02#8 [0x11#8, 0x7E#8]) ∧
    ¬ cascades (responseBody 0x00#8 0xD2#8 0x00#8 0x02#8 [0x11#8, 0x7E#8] ++
      [chk (responseBody 0x00#8 0xD2#8 0x00#8 0x02#8 [0x11#8, 0x7E#8])]) := by
  refine ⟨rfl, ?_⟩
  simp only [cascades, contains_iff_infix]; decide
/-- One byte either side of the limit: de-stuffed to six bytes, and to seven. -/
theorem witness_Caught_short : cascades [0x00#8, 0x7D#8, 0x31#8, 0x00#8] ∧
    ¬ ([0x00#8, 0x7D#8, 0x31#8, 0x00#8].getLast? = some 0x7D#8 ∧
      (chk [0x00#8, 0x7D#8, 0x31#8, 0x00#8] = 0x31#8 ∨ chk [0x00#8, 0x7D#8, 0x31#8, 0x00#8] = 0x33#8)) ∧
    cascadeCount (rawFrameOf [0x00#8, 0x7D#8, 0x31#8, 0x00#8]) < 256 ∧
    (destuff4 (rawFrameOf [0x00#8, 0x7D#8, 0x31#8, 0x00#8])).length < 7 :=
  ⟨.inl ⟨[0x00#8], [0x00#8], rfl⟩, by decide, by decide, by decide⟩
theorem witness_Caught_long : cascades [0x00#8, 0x00#8, 0x7D#8, 0x33#8, 0x00#8] ∧
    ¬ ([0x00#8, 0x00#8, 0x7D#8, 0x33#8, 0x00#8].getLast? = some 0x7D#8 ∧
      (chk [0x00#8, 0x00#8, 0x7D#8, 0x33#8, 0x00#8] = 0x31#8 ∨ chk [0x00#8, 0x00#8, 0x7D#8, 0x33#8, 0x00#8] = 0x33#8)) ∧
    cascadeCount (rawFrameOf [0x00#8, 0x00#8, 0x7D#8, 0x33#8, 0x00#8]) < 256 ∧
    7 ≤ (destuff4 (rawFrameOf [0x00#8, 0x00#8, 0x7D#8, 0x33#8, 0x00#8])).length :=
  ⟨.inr ⟨[0x00#8, 0x00#8], [0x00#8], rfl⟩, by decide, by decide, by decide⟩
theorem witness_RequestFrames : (∃ t, exec Command.stopMeasurement.build (st []) = .next t ∧ t.bufLen = 6) ∧
    (∃ t, exec Command.readProductType.build (st []) = .next t ∧ 7 ≤ t.bufLen) ∧
    (∃ t, exec Command.startMeasurement.build (st []) = .next t ∧ 7 ≤ t.bufLen) := by
  refine ⟨⟨_, rfl, rfl⟩, ⟨_, rfl, ?_⟩, ⟨_, rfl, ?_⟩⟩ <;> decide
/-- For the four statements about every operation word: one that ends with `CASC`, and the illegal word. -/
theorem witness_OperationWord : Instr.destuff.format = .opWord ∧
    (∃ t, exec .destuff (st [0x7D#8, 0x5D#8, 0x31#8]) = .next t ∧ t.flagCasc = true) ∧
    (Instr.illegal 0x00#8).format = .opWord ∧ ∃ t, exec (.illegal 0x00#8) (st []) = .next t := by
  refine ⟨rfl, ⟨_, rfl, ?_⟩, rfl, ⟨_, rfl⟩⟩; decide
/-- Each operation answers, for the clauses about each. -/
theorem witness_EachOperation : (∃ t, exec .destuff (st []) = .next t) ∧ (∃ t, exec .trim (st []) = .next t) ∧
    (∃ t, exec .xform (st []) = .next t) ∧ (∃ t, exec .stuff (st []) = .next t) ∧ (∃ t, exec .chkval (st []) = .next t) ∧
    (∃ t, exec .xformv (st []) = .next t) ∧ (∀ c : Command, ∃ t, exec c.build (st []) = .next t) :=
  ⟨⟨_, rfl⟩, ⟨_, rfl⟩, ⟨_, rfl⟩, ⟨_, rfl⟩, ⟨_, rfl⟩, ⟨_, rfl⟩, fun c => by cases c <;> exact ⟨_, rfl⟩⟩
/-- Each error is reached; `ERR_OVF` from one byte more than fits. -/
theorem witness_EachError : after (.illegal 0x00#8) [] = some ([], 0x20#8) ∧ after .xform [0x7D#8] = some ([0x7D#8], 0x04#8) ∧
    after .chkval [0x7E#8, 0x7E#8] = some ([0x7E#8, 0x7E#8], 0x02#8) ∧
    after .chkval [0x7E#8, 0x00#8, 0x7E#8] = some ([0x7E#8, 0x00#8, 0x7E#8], 0x08#8) ∧
    exec .stuff (st (0x7E#8 :: fill (Config.bufCap - 1) 0x00#8)) =
      .next (st (0x7E#8 :: fill (Config.bufCap - 1) 0x00#8) 0x10#8) :=
  ⟨by decide, by decide, by decide, by decide, by
    simp only [exec, execStuff, stuffResult_error witness_Stuff_over, settle_error]; rfl⟩
theorem witness_ErrorLeaves : Instr.trim.format = .opWord ∧ ∃ t, exec .trim (st (fill 6 0x00#8)) = .next t ∧ t.flagOk = false := by
  refine ⟨rfl, _, rfl, ?_⟩; decide
theorem witness_BufferFrame : (∃ t, exec .chkval (st [0x7E#8, 0xFF#8, 0x7E#8]) = .next t) ∧ Instr.esc7E.format = .wireEscape ∧
    ∃ t, exec .esc7E (st [0x7D#8, 0x5E#8]) = .next t := ⟨⟨_, rfl⟩, rfl, ⟨_, rfl⟩⟩
theorem witness_StepKeepsInvariant : (st (fill 92 0x7E#8) 0x41#8 [.op 0x60#8]).Inv ∧
    ∃ t, step (st (fill 92 0x7E#8) 0x41#8 [.op 0x60#8]) = .next t :=
  ⟨⟨Nat.le_trans (by decide) Config.bufCap_ge, by decide⟩, _, rfl⟩
theorem witness_OnlyOperations : (∃ t, step (st [] 0x01#8 [.load []]) = .next t ∧ (Txn.load []).isOp = false ∧ Txn.load [] ≠ .reset) ∧
    (∃ t, step (st [] 0x01#8 [.reset]) = .next t ∧ t.status = 0x00#8 ∧ (st [] 0x01#8 [.reset]).status ≠ 0x00#8) ∧
    (∃ t, step (st [] 0x01#8 [.readBuf]) = .next t) ∧ ∃ t, step (st [] 0x01#8 [.regRead 2]) = .next t := by
  refine ⟨⟨_, rfl, rfl, ?_⟩, ⟨_, rfl, rfl, ?_⟩, ⟨_, rfl⟩, ⟨_, rfl⟩⟩ <;> decide
/-- Every kind of transaction a host has, the load as long as it may be. -/
theorem witness_DefinedScript : definedScript [.reset, .load (fill Config.bufCap 0x00#8), .op 0x00#8, .readBuf, .readStatus, .regRead 1,
    .regRead 2, .regRead 3, .regWrite 0 [0x10#8], .regWrite 3 []] := by
  simp [definedScript, Txn.defined, fill, Reg.number]

end Sys2Proof.Tests
end

/-! PROOFS of the family 10_state.md. First what an operation word, a wire escape and a transaction can do, each said once; then the
statements. -/

namespace Sys2Proof.Machine

/-! ## The flags after the two ends of an operation -/

section Flags
variable (s : State) (t : Seq) (c : Bool) (e : Err)
@[simp] theorem State.complete_flagOk : (s.complete t c).flagOk = true := by
  change (okStatus c).getLsbD 0 = true
  cases c <;> decide
@[simp] theorem State.complete_flagCasc : (s.complete t c).flagCasc = c := by
  change (okStatus c).getLsbD 6 = c
  cases c <;> decide
@[simp] theorem State.raise_flagOk : (s.raise e).flagOk = false := by
  change e.status.getLsbD 0 = false
  cases e <;> decide
@[simp] theorem State.raise_flagCasc : (s.raise e).flagCasc = false := by
  change e.status.getLsbD 6 = false
  cases e <;> decide
end Flags

/-- The values of `STATUS` after an operation: the legal ones without the reset value (10_state.md R25). -/
def resultStatuses : List Byte := [0x01#8, 0x02#8, 0x04#8, 0x08#8, 0x10#8, 0x20#8, 0x41#8]

theorem okStatus_mem_resultStatuses (c : Bool) : okStatus c ∈ resultStatuses := by cases c <;> decide

theorem Err.status_mem_resultStatuses (e : Err) : e.status ∈ resultStatuses := by cases e <;> decide

theorem resultBits_eq_one_of_mem : ∀ v ∈ resultStatuses, resultBits v = 1 ∧ v.getLsbD 7 = false := by decide

theorem ne_zero_of_mem_resultStatuses : ∀ v ∈ resultStatuses, v ≠ 0x00#8 := by decide

/-! ## What each pure result can be, with the condition of each outcome -/

section Results
variable (b : Seq)

theorem destuffResult_cases :
    (escErr b = true ∧ destuffResult b = .error .esc) ∨
    (escErr b = false ∧ destuffResult b = .ok (destuff4 b)) := by
  cases h : escErr b
  · exact .inr ⟨rfl, destuffResult_ok h⟩
  · exact .inl ⟨rfl, destuffResult_error h⟩

theorem trimResult_cases :
    (b.length < 7 ∧ trimResult b = .error .short) ∨ (7 ≤ b.length ∧ trimResult b = .ok (trim b)) :=
  (Nat.lt_or_ge b.length 7).imp (fun h => ⟨h, trimResult_error h⟩) (fun h => ⟨h, trimResult_ok h⟩)

theorem stuffResult_cases (cap : Nat) :
    (cap < (stuff b).length ∧ stuffResult cap b = .error .ovf) ∨
    ((stuff b).length ≤ cap ∧ stuffResult cap b = .ok (stuff b)) :=
  (Nat.lt_or_ge cap (stuff b).length).imp (fun h => ⟨h, stuffResult_error h⟩) (fun h => ⟨h, stuffResult_ok h⟩)

theorem xformResult_cases :
    (escErr b = true ∧ xformResult b = .error .esc) ∨
    (escErr b = false ∧ (destuff4 b).length < 7 ∧ xformResult b = .error .short) ∨
    (escErr b = false ∧ 7 ≤ (destuff4 b).length ∧ xformResult b = .ok (trim (destuff4 b))) := by
  unfold xformResult
  split
  case isTrue hesc => exact .inl ⟨hesc, rfl⟩
  case isFalse hesc =>
    have hclean : escErr b = false := by simpa using hesc
    split
    case isTrue hlen => exact .inr (.inl ⟨hclean, hlen, rfl⟩)
    case isFalse hlen => exact .inr (.inr ⟨hclean, Nat.le_of_not_lt hlen, rfl⟩)

theorem chkvalResult_cases :
    (b.length < 3 ∧ chkvalResult b = .error .short) ∨
    (3 ≤ b.length ∧ chkOk b = false ∧ chkvalResult b = .error .chk) ∨
    (3 ≤ b.length ∧ chkOk b = true ∧ chkvalResult b = .ok b) := by
  unfold chkvalResult
  split
  case isTrue hlen => exact .inl ⟨hlen, rfl⟩
  case isFalse hlen =>
    have hlong : 3 ≤ b.length := Nat.le_of_not_lt hlen
    cases hchk : chkOk b
    · exact .inr (.inl ⟨hlong, rfl, rfl⟩)
    · exact .inr (.inr ⟨hlong, rfl, rfl⟩)

/-- XFORMV is XFORM with a check between the length test and the trimming (44_checksum.md R145). -/
theorem xformvResult_cases :
    (escErr b = true ∧ xformvResult b = .error .esc) ∨
    (escErr b = false ∧ (destuff4 b).length < 7 ∧ xformvResult b = .error .short) ∨
    (escErr b = false ∧ 7 ≤ (destuff4 b).length ∧ chkOk (destuff4 b) = false ∧ xformvResult b = .error .chk) ∨
    (escErr b = false ∧ 7 ≤ (destuff4 b).length ∧ chkOk (destuff4 b) = true ∧
      xformvResult b = .ok (trim (destuff4 b))) := by
  unfold xformvResult
  split
  case isTrue hesc => exact .inl ⟨hesc, rfl⟩
  case isFalse hesc =>
    have hclean : escErr b = false := by simpa using hesc
    split
    case isTrue hlen => exact .inr (.inl ⟨hclean, hlen, rfl⟩)
    case isFalse hlen =>
      have hlong : 7 ≤ (destuff4 b).length := Nat.le_of_not_lt hlen
      cases hchk : chkOk (destuff4 b)
      · exact .inr (.inr (.inl ⟨hclean, hlong, rfl, rfl⟩))
      · exact .inr (.inr (.inr ⟨hclean, hlong, rfl, rfl⟩))

end Results

/-- Only the de-stuffing operations can carry `CASC`. -/
theorem eq_destuffing_of_opCasc {i : Instr} {b : Seq} (h : opCasc i b = true) :
    i = .destuff ∨ i = .xform ∨ i = .xformv := by
  cases i
  case destuff => exact .inl rfl
  case xform => exact .inr (.inl rfl)
  case xformv => exact .inr (.inr rfl)
  all_goals cases h

/-! ## What an operation word can do -/

section OperationWord
variable {i : Instr} {s t : State}

/-- An operation word ends with its pure result in `BUF`, or with its error raised. -/
theorem exec_opWord_cases (hf : i.format = .opWord) (h : exec i s = .next t) :
    (∃ u, opResult i s.buf = .ok u ∧ t = s.complete u (opCasc i s.buf)) ∨
    (∃ e, opResult i s.buf = .error e ∧ t = s.raise e) :=
  settle_cases (exec_opWord hf s ▸ h)

/-- An end without `OK` is a raised error. -/
theorem exec_eq_raise_of_not_ok (hf : i.format = .opWord) (h : exec i s = .next t) (hok : t.flagOk = false) :
    ∃ e, opResult i s.buf = .error e ∧ t = s.raise e := by
  obtain ⟨u, -, rfl⟩ | herr := exec_opWord_cases hf h
  · simp at hok
  · exact herr

theorem exec_status_mem_resultStatuses (hf : i.format = .opWord) (h : exec i s = .next t) :
    t.status ∈ resultStatuses := by
  obtain ⟨u, -, rfl⟩ | ⟨e, -, rfl⟩ := exec_opWord_cases hf h
  · exact okStatus_mem_resultStatuses _
  · exact e.status_mem_resultStatuses

/-- `CASC` comes with `OK`, and from a de-stuffing operation. -/
theorem exec_flagCasc (hf : i.format = .opWord) (h : exec i s = .next t) (hc : t.flagCasc = true) :
    t.flagOk = true ∧ (i = .destuff ∨ i = .xform ∨ i = .xformv) := by
  obtain ⟨u, -, rfl⟩ | ⟨e, -, rfl⟩ := exec_opWord_cases hf h
  · rw [State.complete_flagCasc] at hc
    exact ⟨State.complete_flagOk .., eq_destuffing_of_opCasc hc⟩
  · simp at hc

/-- BUILD of every command ends with its ROM frame and `OK` alone (40_frame_build.md R90). -/
theorem exec_build (c : Command) (s : State) : exec c.build s = .next (s.complete (romFrame c.index) false) := by
  cases c <;> rfl

theorem exec_illegal (w : Byte) (s : State) : exec (.illegal w) s = .next (s.raise .op) := rfl

/-- A validated sequence is the sequence itself (44_checksum.md R143). -/
theorem eq_of_chkvalResult_ok {b u : Seq} (h : chkvalResult b = .ok u) : u = b := by
  obtain ⟨-, hr⟩ | ⟨-, -, hr⟩ | ⟨-, -, hr⟩ := chkvalResult_cases b
  · cases hr.symm.trans h
  · cases hr.symm.trans h
  · cases hr.symm.trans h; rfl

/-- CHKVAL writes back what `BUF` holds, or raises an error. -/
theorem exec_chkval_buf (h : exec .chkval s = .next t) : t.buf = s.buf := by
  obtain ⟨u, hu, rfl⟩ | ⟨e, -, rfl⟩ := exec_opWord_cases rfl h
  · exact eq_of_chkvalResult_ok hu
  · rfl

/-- The end of an operation writes all of `STATUS`, so what was there before does not matter. -/
theorem settle_setStatus (s : State) (v : Byte) (c : Bool) (r : Except Err Seq) :
    settle (s.setStatus v) c r = settle s c r := by
  cases r <;> rfl

/-- No operation reads `STATUS` (10_state.md R24). -/
theorem exec_setStatus (hf : i.format = .opWord) (s : State) (v : Byte) : exec i (s.setStatus v) = exec i s := by
  rw [exec_opWord hf, exec_opWord hf, settle_setStatus, State.setStatus_buf]

end OperationWord

/-! ## The `STATUS` an operation leaves, as a function of its pure result -/

/-- The value of `STATUS` an end with result `r` leaves. -/
def endStatus (c : Bool) : Except Err Seq → Byte
  | .ok _ => okStatus c
  | .error e => e.status

section EndStatus
variable (c : Bool) (b : Seq)

@[simp] theorem endStatus_ok : endStatus c (.ok b) = okStatus c := rfl
@[simp] theorem endStatus_error (e : Err) : endStatus c (.error e) = e.status := rfl

theorem okStatus_cases : okStatus c = 0x01#8 ∨ okStatus c = 0x41#8 := by cases c <;> simp

theorem exec_status {i : Instr} {s t : State} (hf : i.format = .opWord) (h : exec i s = .next t) :
    t.status = endStatus (opCasc i s.buf) (opResult i s.buf) := by
  obtain ⟨u, hr, rfl⟩ | ⟨e, hr, rfl⟩ := exec_opWord_cases hf h <;> rw [hr] <;> rfl

theorem endStatus_destuff : endStatus c (destuffResult b) ∈ [0x01#8, 0x41#8, 0x04#8] := by
  obtain ⟨-, hr⟩ | ⟨-, hr⟩ := destuffResult_cases b
  · simp [hr]
  · obtain hc | hc := okStatus_cases c <;> simp [hr, hc]

theorem endStatus_trim : endStatus false (trimResult b) ∈ [0x01#8, 0x02#8] := by
  obtain ⟨-, hr⟩ | ⟨-, hr⟩ := trimResult_cases b <;> simp [hr]

theorem endStatus_xform : endStatus c (xformResult b) ∈ [0x01#8, 0x41#8, 0x04#8, 0x02#8] := by
  obtain ⟨-, hr⟩ | ⟨-, -, hr⟩ | ⟨-, -, hr⟩ := xformResult_cases b
  · simp [hr]
  · simp [hr]
  · obtain hc | hc := okStatus_cases c <;> simp [hr, hc]

theorem endStatus_stuff (cap : Nat) : endStatus false (stuffResult cap b) ∈ [0x01#8, 0x10#8] := by
  obtain ⟨-, hr⟩ | ⟨-, hr⟩ := stuffResult_cases b cap <;> simp [hr]

theorem endStatus_chkval : endStatus false (chkvalResult b) ∈ [0x01#8, 0x02#8, 0x08#8] := by
  obtain ⟨-, hr⟩ | ⟨-, -, hr⟩ | ⟨-, -, hr⟩ := chkvalResult_cases b <;> simp [hr]

theorem endStatus_xformv : endStatus c (xformvResult b) ∈ [0x01#8, 0x41#8, 0x04#8, 0x02#8, 0x08#8] := by
  obtain ⟨-, hr⟩ | ⟨-, -, hr⟩ | ⟨-, -, -, hr⟩ | ⟨-, -, -, hr⟩ := xformvResult_cases b
  · simp [hr]
  · simp [hr]
  · simp [hr]
  · obtain hc | hc := okStatus_cases c <;> simp [hr, hc]

end EndStatus

/-! ## What a wire escape can do -/

/-- A wire escape is one of the substitutions (log 4). -/
theorem exec_wireEscape {i : Instr} (hf : i.format = .wireEscape) (s : State) :
    ∃ c r, exec i s = .next (s.writeBuf (replace2 0x7D#8 c r s.buf)) := by
  cases i
  case esc7E => exact ⟨0x5E#8, 0x7E#8, rfl⟩
  case esc7D => exact ⟨0x5D#8, 0x7D#8, rfl⟩
  case esc11 => exact ⟨0x31#8, 0x11#8, rfl⟩
  case esc13 => exact ⟨0x33#8, 0x13#8, rfl⟩
  all_goals cases hf

theorem exec_wireEscape_status {i : Instr} {s t : State} (hf : i.format = .wireEscape) (h : exec i s = .next t) :
    t.status = s.status := by
  obtain ⟨c, r, hex⟩ := exec_wireEscape hf s
  cases hex.symm.trans h
  rfl

/-! ## What the decoder hands to the operations -/

/-- An operation word decodes to an instruction of its own format. -/
@[simp] theorem decodeWord_format (w : Byte) : (decodeWord w).format = .opWord := by
  unfold decodeWord; split <;> rfl

theorem decodeContinuation_format {c : Byte} {i : Instr} (h : decodeContinuation c = some i) :
    i.format = .wireEscape := by
  unfold decodeContinuation at h
  split_ifs at h <;> cases h <;> rfl

/-- Two bytes of the raw stream decode only to a wire escape. -/
theorem decode_wireEscape_format {b c : Byte} {i : Instr} {rest : List Byte}
    (h : decode .wireEscape [b, c] = .ok (i, rest)) : i.format = .wireEscape := by
  simp only [decode] at h
  split at h
  · split at h
    · rename_i hc; cases h; exact decodeContinuation_format hc
    · cases h
  · cases h

/-! ## What a transaction can do -/

section Transactions
variable {s t : State}

/-- A register has one number, and a number one register. -/
theorem Reg.ofNumber_eq_some {n : Nat} {r : Reg} (h : Reg.ofNumber n = some r) : n = r.number := by
  unfold Reg.ofNumber at h
  split at h <;> cases h <;> rfl

/-- A load that is accepted fits. -/
theorem hostLoad_next {v : Seq} (h : hostLoad v s = .next t) : v.length ≤ Config.bufCap ∧ t = s.writeBuf v := by
  obtain hover | hfit := Nat.lt_or_ge Config.bufCap v.length
  · rw [hostLoad_over hover] at h; cases h
  · rw [hostLoad_fits hfit] at h; cases h; exact ⟨hfit, rfl⟩

/-- A read by number that is accepted is a reply. -/
theorem hostRegRead_next {n : Nat} (h : hostRegRead n s = .next t) : ∃ r, t = s.reply r := by
  unfold hostRegRead at h
  split at h <;> cases h <;> exact ⟨_, rfl⟩

/-- A write by number that is accepted hands over an operation word, or loads the buffer. -/
theorem hostRegWrite_next {n : Nat} {v : Seq} (h : hostRegWrite n v s = .next t) :
    (∃ w, n = Reg.op.number ∧ v = [w] ∧ exec (decodeWord w) s = .next t) ∨
    (v.length ≤ Config.bufCap ∧ t = s.writeBuf v) := by
  unfold hostRegWrite at h
  split at h
  case h_1 w hreg => exact .inl ⟨w, Reg.ofNumber_eq_some hreg, rfl, h⟩
  case h_3 => exact .inr (hostLoad_next h)
  all_goals cases h

/-- The wire entry that is accepted runs a wire escape. -/
theorem runWire_next {b c : Byte} (h : runWire b c s = .next t) :
    ∃ i : Instr, i.format = .wireEscape ∧ exec i s = .next t := by
  unfold runWire at h
  split at h
  case h_1 i rest hdec => exact ⟨i, decode_wireEscape_format hdec, h⟩
  case h_2 => cases h

/-- What a transaction that is accepted can do: reset, write a sequence that fits, run an operation word, reply, or run a wire
escape. -/
theorem perform_cases {x : Txn} (h : perform x s = .next t) :
    (x = .reset ∧ t = (s.writeBuf []).setStatus 0x00#8) ∨
    (∃ v, v.length ≤ Config.bufCap ∧ t = s.writeBuf v) ∨
    (∃ w, x.isOp = true ∧ exec (decodeWord w) s = .next t) ∨
    (∃ r, t = s.reply r) ∨
    (∃ i : Instr, i.format = .wireEscape ∧ exec i s = .next t) := by
  cases x with
  | reset => cases h; exact .inl ⟨rfl, rfl⟩
  | load v => exact .inr (.inl ⟨v, hostLoad_next h⟩)
  | op w => exact .inr (.inr (.inl ⟨w, rfl, h⟩))
  | readBuf => cases h; exact .inr (.inr (.inr (.inl ⟨_, rfl⟩)))
  | readStatus => cases h; exact .inr (.inr (.inr (.inl ⟨_, rfl⟩)))
  | regRead n => exact .inr (.inr (.inr (.inl (hostRegRead_next h))))
  | regWrite n v =>
    obtain ⟨w, rfl, rfl, hop⟩ | hload := hostRegWrite_next h
    · exact .inr (.inr (.inl ⟨w, rfl, hop⟩))
    · exact .inr (.inl ⟨v, hload⟩)
  | wire b c => exact .inr (.inr (.inr (.inr (runWire_next h))))

/-- A read, by its transaction or by number, is a reply and nothing else. -/
theorem perform_read {x : Txn} (hx : x = .readBuf ∨ x = .readStatus ∨ ∃ n, x = .regRead n)
    (h : perform x s = .next t) : ∃ r, t = s.reply r := by
  obtain rfl | rfl | ⟨n, rfl⟩ := hx
  · cases h; exact ⟨_, rfl⟩
  · cases h; exact ⟨_, rfl⟩
  · exact hostRegRead_next h

/-- Who writes `STATUS`: reset, with `00`; an operation word, with a value that is not `00`; nobody else. -/
theorem perform_status_cases {x : Txn} (h : perform x s = .next t) :
    x = .reset ∨ (x.isOp = true ∧ t.status ≠ 0x00#8) ∨ t.status = s.status := by
  obtain ⟨hx, -⟩ | ⟨v, -, rfl⟩ | ⟨w, hop, hex⟩ | ⟨r, rfl⟩ | ⟨i, hf, hex⟩ := perform_cases h
  · exact .inl hx
  · exact .inr (.inr rfl)
  · have hmem := exec_status_mem_resultStatuses (decodeWord_format w) hex
    exact .inr (.inl ⟨hop, ne_zero_of_mem_resultStatuses _ hmem⟩)
  · exact .inr (.inr rfl)
  · exact .inr (.inr (exec_wireEscape_status hf hex))

end Transactions

/-- States with the same sequence have the same buffer space: length, cells and bytes. -/
theorem State.bufferSpace_eq_of_buf_eq {s t : State} (h : t.buf = s.buf) :
    t.bufLen = s.bufLen ∧ t.cells = s.cells ∧ ∀ a, t.readByte a = s.readByte a := by
  simp [State.bufLen, State.cells, State.readByte, h]

/-! ## The statements -/

/-- Settles O1: the reset step is one transaction performed, and the ROM is the constant list of seven frames. -/
theorem resetLeavesEmptyBufferAndZeroStatus : Obligations.ResetLeavesEmptyBufferAndZeroStatus := by
  unfold Obligations.ResetLeavesEmptyBufferAndZeroStatus
  refine ⟨⟨rfl, rfl, rfl⟩, fun s rest h => ?_, fun s => ⟨rfl, rfl, rfl, rfl, rfl, rfl, rfl, fun c hc => ?_⟩⟩
  · rw [step_cons h]; rfl
  · exact List.getElem?_eq_none hc

/-- Settles O46: an operation ends with `ok()` or with one error raised, which are the seven result values. -/
theorem oneResultFlagAfterAnOperation : Obligations.OneResultFlagAfterAnOperation := by
  unfold Obligations.OneResultFlagAfterAnOperation
  refine ⟨rfl, fun i s t hf h => ?_⟩
  have hmem : t.status ∈ resultStatuses := exec_status_mem_resultStatuses hf h
  obtain ⟨hbits, hbit7⟩ := resultBits_eq_one_of_mem _ hmem
  exact ⟨hbits, hbit7, exec_flagCasc hf h, hmem⟩

/-- Settles O47: `STATUS` after an operation is a function of its pure result, and the end of an operation overwrites it whole. -/
theorem flagsEachOperationCanSet : Obligations.FlagsEachOperationCanSet := by
  unfold Obligations.FlagsEachOperationCanSet
  refine ⟨fun i s t h => ⟨?_, ?_, ?_, ?_, ?_, ?_, ?_, ?_⟩, fun i s v hf => exec_setStatus hf s v⟩
  · rintro c rfl; rw [exec_build] at h; cases h; exact okStatus_false
  · rintro rfl; exact exec_status rfl h ▸ endStatus_destuff _ _
  · rintro rfl; exact exec_status rfl h ▸ endStatus_trim _
  · rintro rfl; exact exec_status rfl h ▸ endStatus_xform _ _
  · rintro rfl; exact exec_status rfl h ▸ endStatus_stuff _ _
  · rintro rfl; exact exec_status rfl h ▸ endStatus_chkval _
  · rintro rfl; exact exec_status rfl h ▸ endStatus_xformv _ _
  · rintro w rfl; rw [exec_illegal] at h; cases h; exact status_op

/-- Settles O51: in each case the buffer is the same sequence, because CHKVAL writes back what it read and a raised error writes
only `STATUS`. -/
theorem bufferFrame : Obligations.BufferFrame := by
  unfold Obligations.BufferFrame
  refine fun i s t h => ⟨fun hcase => State.bufferSpace_eq_of_buf_eq ?_, fun hf => exec_wireEscape_status hf h⟩
  obtain rfl | ⟨w, rfl⟩ | ⟨hf, hok⟩ := hcase
  · exact exec_chkval_buf h
  · rw [exec_illegal] at h; cases h; rfl
  · obtain ⟨e, -, rfl⟩ := exec_eq_raise_of_not_ok hf h hok
    rfl

/-- Settles O54: by who writes `STATUS` among the transactions, and since a read is a reply and nothing else. -/
theorem onlyOperationsAndResetWriteStatus : Obligations.OnlyOperationsAndResetWriteStatus := by
  unfold Obligations.OnlyOperationsAndResetWriteStatus
  intro s t x rest hs h
  rw [step_cons hs] at h
  have hstatus := perform_status_cases h
  refine ⟨fun hop hreset => ?_, fun hzero hne => ?_, fun hread => ?_⟩
  · obtain hx | ⟨hx, -⟩ | hkeep := hstatus
    · exact absurd hx hreset
    · simp [hop] at hx
    · exact hkeep
  · obtain hx | ⟨-, hnz⟩ | hkeep := hstatus
    · exact hx
    · exact absurd hzero hnz
    · exact absurd (hkeep.symm.trans hzero) hne
  · obtain ⟨r, rfl⟩ := perform_read hread h
    rfl

end Sys2Proof.Machine

/-! PROOFS of the family 20_memory.md. First what a transaction does whatever the host issues after it, said once for the operations, the
transactions and the run; then the positions the trim stage and the checksum stage use; then the statements. -/

namespace Sys2Proof.Machine

/-! ## An instruction writes `BUF` and `STATUS`, the same whatever the host issues next -/

section Effect
variable (s : State)

theorem settle_effect (c : Bool) (r : Except Err Seq) : ∃ b v, ∀ rest,
    settle { s with script := rest } c r = .next { s with buf := b, status := v, script := rest } := by
  cases r with
  | ok u => exact ⟨u, okStatus c, fun _ => rfl⟩
  | error e => exact ⟨s.buf, e.status, fun _ => rfl⟩

/-- A wire escape is the same substitution in every state (log 4). -/
theorem exec_eq_substitute {i : Instr} (hf : i.format = .wireEscape) : ∃ c r, ∀ s, exec i s = substitute c r s := by
  cases i
  case esc7E => exact ⟨0x5E#8, 0x7E#8, fun _ => rfl⟩
  case esc7D => exact ⟨0x5D#8, 0x7D#8, fun _ => rfl⟩
  case esc11 => exact ⟨0x31#8, 0x11#8, fun _ => rfl⟩
  case esc13 => exact ⟨0x33#8, 0x13#8, fun _ => rfl⟩
  all_goals cases hf

/-- Every instruction ends, and writes nothing but `BUF` and `STATUS`; the script is not read (20_memory.md R44, R45). -/
theorem exec_effect (i : Instr) : ∃ b v, ∀ rest,
    exec i { s with script := rest } = .next { s with buf := b, status := v, script := rest } := by
  cases hf : i.format with
  | opWord =>
    obtain ⟨b, v, hend⟩ := settle_effect s (opCasc i s.buf) (opResult i s.buf)
    exact ⟨b, v, fun rest => (exec_opWord hf _).trans (hend rest)⟩
  | wireEscape =>
    obtain ⟨c, r, hsub⟩ := exec_eq_substitute hf
    exact ⟨replace2 0x7D#8 c r s.buf, s.status, fun _ => hsub _⟩

/-- A defined transaction is performed, and what it does is the same whatever the host issues after it (R45). -/
theorem perform_effect {x : Txn} (hx : x.defined) : ∃ t : State, ∀ rest,
    perform x { s with script := rest } = .next { t with script := rest } := by
  cases x with
  | reset => exact ⟨(s.writeBuf []).setStatus 0x00#8, fun _ => rfl⟩
  | load v => exact ⟨s.writeBuf v, fun _ => hostLoad_fits hx _⟩
  | op w =>
    obtain ⟨b, v, hend⟩ := exec_effect s (decodeWord w)
    exact ⟨{ s with buf := b, status := v }, hend⟩
  | readBuf => exact ⟨s.reply (.buf s.buf), fun _ => rfl⟩
  | readStatus => exact ⟨s.reply (.status s.status), fun _ => rfl⟩
  | regRead n =>
    obtain rfl | rfl | rfl := hx
    · exact ⟨s.reply (.status s.status), fun _ => rfl⟩
    · exact ⟨s.reply (.bufLen s.bufLen), fun _ => rfl⟩
    · exact ⟨s.reply (.buf s.buf), fun _ => rfl⟩
  | regWrite n v =>
    obtain ⟨rfl, hone⟩ | ⟨rfl, hfit⟩ := hx
    · obtain ⟨w, rfl⟩ := List.length_eq_one_iff.mp hone
      obtain ⟨b, v, hend⟩ := exec_effect s (decodeWord w)
      exact ⟨{ s with buf := b, status := v }, hend⟩
    · exact ⟨s.writeBuf v, fun _ => hostLoad_fits hfit _⟩
  | wire b c => exact hx.elim

end Effect

/-! ## Runs -/

section Run

theorem run_succ_of_step {M : Host.Core} {s s' : M.State} (k : Nat) (h : M.step s = .next s') :
    M.run (k + 1) s = M.run k s' := by
  simp [Host.Core.run, h]

/-- A run that gets through its first `m` steps goes on from where they end. -/
theorem run_add_of_next {M : Host.Core} {s t : M.State} {m : Nat} (k : Nat) (h : M.run m s = .next t) :
    M.run (m + k) s = M.run k t := by
  induction m generalizing s with
  | zero => cases h; rw [Nat.zero_add]
  | succ m ih =>
    cases hstep : M.step s with
    | next s' =>
      rw [run_succ_of_step m hstep] at h
      rw [Nat.succ_add, run_succ_of_step (m + k) hstep, ih h]
    | fault r => simp [Host.Core.run, hstep] at h
    | refused r => simp [Host.Core.run, hstep] at h

/-- Defined transactions are all performed, and what they do is the same whatever the host issues after them (R45). -/
theorem run_effect {first : List Txn} (hdef : definedScript first) (s : State) : ∃ t : State, ∀ later,
    core.run first.length { s with script := first ++ later } = .next { t with script := later } := by
  induction first generalizing s with
  | nil => exact ⟨s, fun _ => rfl⟩
  | cons x xs ih =>
    obtain ⟨hx, hxs⟩ := List.forall_mem_cons.mp hdef
    obtain ⟨u, hu⟩ := perform_effect s hx
    obtain ⟨t, ht⟩ := ih hxs u
    exact ⟨t, fun later => (run_succ_of_step xs.length (hu (xs ++ later))).trans (ht later)⟩

variable {s : State} {rest : List Txn}

theorem step_readBuf (h : s.script = .readBuf :: rest) :
    step s = .next { s with script := rest, returned := s.returned ++ [.buf s.buf] } := step_cons h

theorem step_readStatus (h : s.script = .readStatus :: rest) :
    step s = .next { s with script := rest, returned := s.returned ++ [.status s.status] } := step_cons h

end Run

/-! ## The words that select no operation -/

/-- A word outside the thirteen decodes as illegal (30_encoding.md R76). -/
theorem decodeWord_of_notMem : ∀ w : Byte, w ∉ definedWords → decodeWord w = .illegal w := by decide

/-! ## The positions the trim stage and the checksum stage use -/

section Positions

/-- A range depends on the positions in it alone. -/
theorem slice_congr {u s : Seq} {a b : Nat} (h : ∀ i, a ≤ i → i < b → u[i]? = s[i]?) : slice u a b = slice s a b := by
  refine List.ext_getElem? fun i => ?_
  simp only [slice, List.getElem?_drop, List.getElem?_take]
  split
  · exact h (a + i) (Nat.le_add_right a i) ‹_›
  · rfl

/-- Trimming depends on the positions 5 to `n - 3` alone (20_memory.md R53). -/
theorem trim_congr {u s : Seq} (hlen : u.length = s.length)
    (h : ∀ i, 5 ≤ i → i + 3 ≤ s.length → u[i]? = s[i]?) : trim u = trim s := by
  simp only [trim, Config.hdrLen, Config.tlrLen, hlen]
  exact slice_congr fun i h5 hi => h i h5 (by omega)

/-- The checksum test depends on the positions 1 to `n - 2` alone (R53). -/
theorem chkOk_congr {u s : Seq} (hlong : 3 ≤ s.length) (hlen : u.length = s.length)
    (h : ∀ i, 1 ≤ i → i + 2 ≤ s.length → u[i]? = s[i]?) : chkOk u = chkOk s := by
  have hsummed : slice u 1 (s.length - 2) = slice s 1 (s.length - 2) :=
    slice_congr fun i h1 hi => h i h1 (by omega)
  have hchecksum : u[s.length - 2]? = s[s.length - 2]? := h _ (by omega) (by omega)
  simp only [chkOk, hlen, hsummed, hchecksum]

variable {s : State}

theorem exec_trim_long (h : 7 ≤ s.bufLen) : exec .trim s = .next (s.complete (trim s.buf) false) := by
  change settle s false (trimResult s.buf) = _
  rw [trimResult_ok h, settle_ok]

/-- CHKVAL of a sequence that is long enough writes the outcome of the checksum test into `STATUS` and nothing else
(44_checksum.md R143). -/
theorem exec_chkval_long (h : 3 ≤ s.bufLen) :
    exec .chkval s = .next (s.setStatus (if chkOk s.buf then 0x01#8 else 0x08#8)) := by
  change settle s false (chkvalResult s.buf) = _
  obtain ⟨hshort, -⟩ | ⟨-, hchk, hr⟩ | ⟨-, hchk, hr⟩ := chkvalResult_cases s.buf
  · exact absurd hshort (Nat.not_lt.mpr h)
  · rw [hr, hchk]; rfl
  · rw [hr, hchk]; rfl

end Positions

/-! ## The statements -/

/-- Settles O35: the trimmed range and the checksum test are equal where the positions they use hold equal bytes. -/
theorem positionsTheOperationsUse : Obligations.PositionsTheOperationsUse := by
  unfold Obligations.PositionsTheOperationsUse
  refine ⟨fun s u t hlong hlen hbytes h => ?_, fun s u t hlong hlen hbytes h => ?_⟩
  · rw [exec_trim_long hlong] at h
    rw [exec_trim_long (hlen ▸ hlong), trim_congr hlen hbytes]
    cases h; rfl
  · rw [exec_chkval_long hlong] at h
    rw [exec_chkval_long (hlen ▸ hlong), chkOk_congr hlong hlen hbytes]
    cases h; rfl

/-- Settles O56: the first transactions do the same with any script after them, so with none and with the later ones; the run then
goes on from where they end. -/
theorem transactionsActInOrder : Obligations.TransactionsActInOrder := by
  unfold Obligations.TransactionsActInOrder
  intro s first later hdef
  obtain ⟨t, ht⟩ := run_effect hdef s
  have halone := ht []
  rw [List.append_nil] at halone
  exact ⟨{ t with script := [] }, halone, ht later, run_add_of_next later.length (ht later)⟩

/-- Settles O2: the step is the load performed, by whether it fits. -/
theorem loadReplacesBufferOrIsRefused : Obligations.LoadReplacesBufferOrIsRefused := by
  unfold Obligations.LoadReplacesBufferOrIsRefused
  intro s v rest h
  exact ⟨fun hfit => (step_cons h).trans (hostLoad_fits hfit _), fun hover => (step_cons h).trans (hostLoad_over hover _)⟩

/-- Settles O3: a read is a reply, and the second of two reads finds the framer as the first did. -/
theorem readsReturnAndChangeNothing : Obligations.ReadsReturnAndChangeNothing := by
  unfold Obligations.ReadsReturnAndChangeNothing
  refine ⟨fun s rest => step_readBuf, fun s rest => step_readStatus, fun s rest h => ?_, fun s rest h => ?_⟩
  · rw [run_succ_of_step (M := core) 1 (step_readBuf h), run_succ_of_step (M := core) 0 (step_readBuf rfl)]
    simp [Host.Core.run]
  · rw [run_succ_of_step (M := core) 1 (step_readStatus h), run_succ_of_step (M := core) 0 (step_readStatus rfl)]
    simp [Host.Core.run]

/-- Settles O4: the step is the decoded instruction, which ends in every state; a word outside the thirteen raises `ERR_OP`. -/
theorem stepRunsTheDecodedOperationWord : Obligations.StepRunsTheDecodedOperationWord := by
  unfold Obligations.StepRunsTheDecodedOperationWord
  intro s w rest h
  have hstep : step s = exec (decodeWord w) { s with script := rest } := step_cons h
  obtain ⟨b, v, hend⟩ := exec_effect s (decodeWord w)
  refine ⟨hstep, ⟨_, hstep.trans (hend rest)⟩, fun hw => ?_⟩
  rw [hstep, decodeWord_of_notMem w hw, exec_illegal]
  rfl

/-- Settles O50: an instruction writes only `BUF` and `STATUS`, and the ROM is no part of the state. -/
theorem everyInstructionCompletes : Obligations.EveryInstructionCompletes := by
  unfold Obligations.EveryInstructionCompletes
  intro i s
  obtain ⟨b, v, hend⟩ := exec_effect s i
  exact ⟨{ s with buf := b, status := v }, hend s.script, rfl, rfl, fun c => State.rom_eq _ s c⟩

end Sys2Proof.Machine

/-! PROOFS of the family 30_encoding.md. First the lengths that stuffing gives, then the fields of the operation word and the words that are
illegal, then the escape table; then the statements. -/

namespace Sys2Proof.Machine

/-! ## How long stuffing makes a sequence -/

section StuffLength

theorem stuffByte_length_bounds (b : Byte) : 1 ≤ (stuffByte b).length ∧ (stuffByte b).length ≤ 2 := by
  obtain ⟨-, h⟩ | ⟨-, h⟩ | ⟨-, h⟩ | ⟨-, h⟩ | ⟨-, h⟩ := stuffByte_cases b <;> simp [h]

/-- Each byte takes one or two bytes raw (30_encoding.md R66). -/
theorem stuff_length_bounds (p : Seq) : p.length ≤ (stuff p).length ∧ (stuff p).length ≤ 2 * p.length := by
  induction p with
  | nil => simp
  | cons b rest ih =>
    have hb := stuffByte_length_bounds b
    simp only [stuff_cons, List.length_append, List.length_cons]
    omega

/-- A frame is its body, the checksum and two markers (R61, R62). -/
@[simp] theorem frameOf_length (body : Seq) : (frameOf body).length = body.length + 3 := by simp [frameOf]

/-- The markers are not stuffed (R65). -/
@[simp] theorem rawFrameOf_length (body : Seq) :
    (rawFrameOf body).length = (stuff (body ++ [chk body])).length + 2 := by
  simp [rawFrameOf]

end StuffLength

/-! ## The fields of the operation word -/

section Fields
variable (w : Byte)

theorem argField_lt : argField w < 16 := (w.extractLsb' 0 4).isLt

/-- The two fields are the two hexadecimal digits of the word, both unsigned (R74). -/
theorem toNat_eq_fields : w.toNat = 16 * opcField w + argField w := by
  have hw : w.toNat < 256 := w.isLt
  simp only [opcField, argField, BitVec.extractLsb'_toNat, Nat.shiftRight_eq_div_pow]
  omega

/-- The illegal words by their fields (R76): along the branches of the decoder, of which only the last answers an illegal word. -/
theorem decodeWord_eq_illegal_iff_fields : decodeWord w = .illegal w ↔
    (opcField w = 0 ∨ 8 ≤ opcField w ∨ (opcField w = 1 ∧ 7 ≤ argField w) ∨
      (2 ≤ opcField w ∧ opcField w ≤ 7 ∧ argField w ≠ 0)) := by
  unfold decodeWord
  split
  case h_14 => simp only [true_iff, imp_false] at *; omega
  all_goals simp only [reduceCtorEq, false_iff]; omega

/-- The illegal words are those outside the list of the thirteen (R75, R76). -/
theorem decodeWord_eq_illegal_iff_notMem : decodeWord w = .illegal w ↔ w ∉ definedWords := by
  have hdefined : ∀ v ∈ definedWords, decodeWord v ≠ .illegal v := by decide
  exact ⟨fun h hmem => hdefined w hmem h, decodeWord_of_notMem w⟩

end Fields

/-! ## The escape table -/

section EscapeTable
variable (b : Byte)

theorem isContinuation_iff : isContinuation b = true ↔ b = 0x5E#8 ∨ b = 0x5D#8 ∨ b = 0x31#8 ∨ b = 0x33#8 := by
  simp [isContinuation, or_assoc]

theorem isReserved_iff : isReserved b = true ↔ b = 0x7E#8 ∨ b = 0x7D#8 ∨ b = 0x11#8 ∨ b = 0x13#8 := by
  simp [isReserved, or_assoc]

variable {b}

/-- A reserved byte is escaped by inverting its bit 5 (R64). -/
theorem stuff_reserved (h : isReserved b = true) :
    stuff [b] = [0x7D#8, b ^^^ 0x20#8] ∧ isContinuation (b ^^^ 0x20#8) = true := by
  obtain rfl | rfl | rfl | rfl := (isReserved_iff b).mp h <;> decide

/-- No continuation byte is reserved (R64). -/
theorem isReserved_eq_false_of_isContinuation (h : isContinuation b = true) : isReserved b = false := by
  obtain rfl | rfl | rfl | rfl := (isContinuation_iff b).mp h <;> rfl

end EscapeTable

/-! ## The statements -/

/-- Settles O42: the content between the markers is one byte longer than the body, and stuffing gives it between once and twice its
length. -/
theorem rawFrameLength : Obligations.RawFrameLength := by
  unfold Obligations.RawFrameLength
  intro body
  obtain ⟨hleast, hmost⟩ := stuff_length_bounds (body ++ [chk body])
  rw [List.length_append, List.length_singleton] at hleast hmost
  rw [frameOf_length, rawFrameOf_length]
  omega

/-- Settles O8: the fields are the word's two hexadecimal digits, and the decoder's branches are the thirteen rows. -/
theorem thirteenWordsDecode : Obligations.ThirteenWordsDecode := by
  unfold Obligations.ThirteenWordsDecode
  exact ⟨fun w => ⟨toNat_eq_fields w, argField_lt w⟩, rfl, rfl, rfl, rfl, rfl, rfl, rfl, rfl, rfl, rfl, rfl, rfl, rfl⟩

/-- Settles O9: the illegal words by fields and by the list, which has no word twice; an illegal word raises `ERR_OP`. -/
theorem otherWordsRaiseErrOp : Obligations.OtherWordsRaiseErrOp := by
  unfold Obligations.OtherWordsRaiseErrOp
  exact ⟨decodeWord_eq_illegal_iff_fields, decodeWord_eq_illegal_iff_notMem, by decide, rfl, exec_illegal⟩

/-- Settles O12: the rows are computed, and the bytes of either column are the four listed. -/
theorem escapeTableInBothDirections : Obligations.EscapeTableInBothDirections := by
  unfold Obligations.EscapeTableInBothDirections
  refine ⟨⟨rfl, rfl, rfl, rfl⟩, ⟨rfl, rfl, rfl, rfl⟩, fun _ => rfl, isContinuation_iff, isReserved_iff,
    fun _ => stuff_reserved, fun c ⟨hcont, hres⟩ => ?_⟩
  rw [isReserved_eq_false_of_isContinuation hcont] at hres
  cases hres

end Sys2Proof.Machine

/-! PROOFS of the family 40_frame_build.md. First `BUF` and `BUF_LEN` after a BUILD, then the statement. -/

namespace Sys2Proof.Machine

section Build
variable {c : Command} {s t : State}

/-- `BUF` after a BUILD is the command's ROM frame (40_frame_build.md R90). -/
theorem exec_build_buf (h : exec c.build s = .next t) : t.buf = romFrame c.index := by
  rw [exec_build] at h
  cases h
  exact State.complete_buf ..

/-- `BUF_LEN` after a BUILD is the length of the command's ROM frame (R90). -/
theorem exec_build_bufLen (h : exec c.build s = .next t) : t.bufLen = (romFrame c.index).length :=
  congrArg List.length (exec_build_buf h)

end Build

/-! ## The statement -/

/-- Settles O13: each BUILD is the end of an operation with its ROM frame as the result; the lengths are those of the seven
frames, and the expected answers are the table's. -/
theorem buildCopiesTheRomFrame : Obligations.BuildCopiesTheRomFrame := by
  unfold Obligations.BuildCopiesTheRomFrame
  refine ⟨fun s => ⟨exec_build .startMeasurement s, exec_build .stopMeasurement s, exec_build .readMeasurement s,
    exec_build .readProductType s, exec_build .readSerialNumber s, exec_build .readFirmwareVersion s,
    exec_build .readStatusRegister s⟩, fun c s t h => ?_, rfl, rfl⟩
  rw [exec_build_bufLen h]
  cases c <;> rfl

end Sys2Proof.Machine

/-! PROOFS of the family 41_destuff.md. First one substitution: the loop of its rule, what stands at the front of its result, and when it
finds nothing. Then `esc_err` and `casc` by positions, the single pass with its induction, and `destuff4` as its last two substitutions on
the single pass's result; then the statements. -/

namespace Sys2Proof.Machine

/-! ## Containment of a pair -/

section Contains
variable {a b c : Byte} {s : Seq}

theorem not_contains_nil_pair : ¬ contains [] [a, b] := by simp [contains_iff_infix]

theorem contains_pair_cons {x : Byte} :
    contains (x :: s) [a, b] ↔ (x = a ∧ s.head? = some b) ∨ contains s [a, b] := by
  have hfront : [a, b] <+: x :: s ↔ x = a ∧ s.head? = some b := by
    cases s <;> simp [List.cons_prefix_cons, eq_comm]
  rw [contains_iff_infix, List.infix_cons_iff, hfront, contains_iff_infix]

/-- Containment of three bytes, by positions. -/
theorem contains_triple_iff : contains s [a, b, c] ↔
    ∃ i, s[i]? = some a ∧ s[i + 1]? = some b ∧ s[i + 2]? = some c := by
  rw [contains_iff_infix, List.infix_iff_getElem?]
  constructor
  · rintro ⟨i, -, h⟩
    refine ⟨i, ?_, ?_, ?_⟩
    · simpa using h 0 (by simp)
    · simpa [Nat.add_comm] using h 1 (by simp)
    · simpa [Nat.add_comm] using h 2 (by simp)
  · rintro ⟨i, ha, hb, hc⟩
    obtain ⟨hlen, -⟩ := List.getElem?_eq_some_iff.mp hc
    refine ⟨i, by simp; omega, fun k hk => ?_⟩
    obtain rfl | rfl | rfl : k = 0 ∨ k = 1 ∨ k = 2 := by simp at hk; omega
    · simpa using ha
    · simpa [Nat.add_comm] using hb
    · simpa [Nat.add_comm] using hc

/-- A cascade in the content, by its front byte (41_destuff.md R106 law 5). -/
theorem cascades_cons {x : Byte} : cascades (x :: s) ↔
    (x = 0x7D#8 ∧ (s.head? = some 0x31#8 ∨ s.head? = some 0x33#8)) ∨ cascades s := by
  simp only [cascades, contains_pair_cons, and_or_left, or_or_or_comm]

end Contains

/-! ## One substitution -/

section Replace2
variable (a b c : Byte)

section Loop
variable {a b} {s : Seq} {i : Nat}

theorem replace2_drop_of_occurrence (hnext : i + 1 < s.length) (ha : s[i]? = some a) (hb : s[i + 1]? = some b) :
    replace2 a b c (s.drop i) = c :: replace2 a b c (s.drop (i + 2)) := by
  obtain ⟨hi, ha⟩ := List.getElem?_eq_some_iff.mp ha
  obtain ⟨_, hb⟩ := List.getElem?_eq_some_iff.mp hb
  rw [List.drop_eq_getElem_cons hi, List.drop_eq_getElem_cons hnext, ha, hb, replace2_hit]

theorem replace2_drop_of_no_occurrence (hi : i < s.length)
    (h : ¬ (i + 1 < s.length ∧ s[i]? = some a ∧ s[i + 1]? = some b)) :
    replace2 a b c (s.drop i) = s[i]?.toList ++ replace2 a b c (s.drop (i + 1)) := by
  rw [List.drop_eq_getElem_cons hi, List.getElem?_eq_getElem hi]
  obtain hnext | hlast := Nat.lt_or_ge (i + 1) s.length
  · rw [List.drop_eq_getElem_cons hnext]
    refine replace2_miss a b c (fun hocc => h ⟨hnext, ?_⟩) _
    simpa [hi, hnext] using hocc
  · rw [List.drop_of_length_le hlast]; rfl

end Loop

/-- The loop at index `i` appends the substitution of what is left, if it has turns enough (R100). -/
theorem replace2Loop_eq_append (s : Seq) (fuel i : Nat) (out : Seq) (h : s.length ≤ fuel + i) :
    replace2Loop s a b c fuel i out = out ++ replace2 a b c (s.drop i) := by
  induction fuel generalizing i out with
  | zero => simp [replace2Loop, List.drop_of_length_le (Nat.zero_add i ▸ h)]
  | succ fuel ih =>
    unfold replace2Loop
    split
    case isFalse hend => simp [List.drop_of_length_le (Nat.le_of_not_lt hend)]
    case isTrue hi =>
      split
      case isTrue hocc =>
        obtain ⟨hnext, ha, hb⟩ := hocc
        rw [ih _ _ (by omega), replace2_drop_of_occurrence c hnext ha hb, List.append_assoc, List.singleton_append]
      case isFalse hmiss =>
        rw [ih _ _ (by omega), replace2_drop_of_no_occurrence c hi hmiss, List.append_assoc]

/-- The front byte of the result is the front byte of the input, or the replacement. -/
theorem replace2_cons_front (x : Byte) (s : Seq) :
    ∃ y t, replace2 a b c (x :: s) = y :: t ∧ (y = x ∨ y = c) := by
  cases s with
  | nil => exact ⟨x, [], rfl, .inl rfl⟩
  | cons y rest =>
    by_cases h : x = a ∧ y = b
    · obtain ⟨rfl, rfl⟩ := h
      exact ⟨c, _, replace2_hit .., .inr rfl⟩
    · exact ⟨x, _, replace2_miss a b c h rest, .inl rfl⟩

variable {a b}

/-- A substitution that finds no occurrence changes nothing. -/
theorem replace2_eq_self {s : Seq} (h : ¬ contains s [a, b]) : replace2 a b c s = s := by
  fun_induction replace2 a b c s with
  | case1 => rfl
  | case2 x => rfl
  | case3 x y rest hocc ih =>
    obtain ⟨rfl, rfl⟩ := hocc
    exact absurd (contains_pair_cons.mpr (.inl ⟨rfl, rfl⟩)) h
  | case4 x y rest hmiss ih => rw [ih fun hrest => h (contains_pair_cons.mpr (.inr hrest))]

/-- A substitution that finds an occurrence shortens. -/
theorem replace2_length_lt {s : Seq} (h : contains s [a, b]) : (replace2 a b c s).length < s.length := by
  fun_induction replace2 a b c s with
  | case1 => exact absurd h not_contains_nil_pair
  | case2 x => simp [contains_pair_cons, not_contains_nil_pair] at h
  | case3 x y rest hocc ih =>
    have hrest : (replace2 a b c rest).length ≤ rest.length := replace2_length_le a b c rest
    simp only [List.length_cons]
    omega
  | case4 x y rest hmiss ih =>
    obtain ⟨rfl, hy⟩ | hrest := contains_pair_cons.mp h
    · exact absurd ⟨rfl, Option.some.inj hy⟩ hmiss
    · exact Nat.succ_lt_succ (ih hrest)

/-- What follows a substitution and does not lengthen either keeps the length of the input exactly when the substitution found
nothing and what follows keeps it. -/
theorem length_after_replace2_eq_iff {f : Seq → Seq} (hf : ∀ t, (f t).length ≤ t.length) (s : Seq) :
    (f (replace2 a b c s)).length = s.length ↔ ¬ contains s [a, b] ∧ (f s).length = s.length := by
  by_cases h : contains s [a, b]
  · have hshorter : (f (replace2 a b c s)).length < s.length := (hf _).trans_lt (replace2_length_lt c h)
    simp [h, hshorter.ne]
  · simp [h, replace2_eq_self c h]

theorem replace2_length_eq_iff (s : Seq) : (replace2 a b c s).length = s.length ↔ ¬ contains s [a, b] := by
  simpa using length_after_replace2_eq_iff c (f := id) (fun _ => le_rfl) s

end Replace2

/-! ## `esc_err` and `casc` by positions -/

section Positions

/-- R102: some escape byte is last, or is followed by a byte that is no continuation. -/
theorem escErr_iff_positions (s : Seq) : escErr s = true ↔ ∃ i, s[i]? = some 0x7D#8 ∧
    (i + 1 = s.length ∨ ∃ c, s[i + 1]? = some c ∧ isContinuation c = false) := by
  fun_induction escErr s with
  | case1 => simp
  | case2 x => rw [← Nat.or_exists_add_one]; simp
  | case3 x y rest ih => rw [← Nat.or_exists_add_one]; simp [ih]

theorem cascHead_iff (s : Seq) : cascHead s = true ↔ s[0]? = some 0x7D#8 ∧ s[1]? = some 0x5D#8 ∧
    (s[2]? = some 0x31#8 ∨ s[2]? = some 0x33#8) := by
  obtain _ | ⟨x, _ | ⟨y, _ | ⟨z, rest⟩⟩⟩ := s <;> simp [cascHead, and_assoc]

/-- R104, along the recursion of `casc`. -/
theorem casc_iff_positions (s : Seq) : casc s = true ↔ ∃ i, s[i]? = some 0x7D#8 ∧ s[i + 1]? = some 0x5D#8 ∧
    (s[i + 2]? = some 0x31#8 ∨ s[i + 2]? = some 0x33#8) := by
  induction s with
  | nil => simp
  | cons x rest ih =>
    refine Iff.trans ?_ Nat.or_exists_add_one
    rw [casc_cons, Bool.or_eq_true, cascHead_iff, ih]; rfl

variable {s : Seq} (h : 0x7D#8 ∉ s)
include h

theorem escErr_eq_false_of_notMem : escErr s = false := by
  rw [← Bool.not_eq_true, escErr_iff_positions]
  rintro ⟨i, hi, -⟩
  exact h (List.mem_of_getElem? hi)

theorem casc_eq_false_of_notMem : casc s = false := by
  rw [← Bool.not_eq_true, casc_iff_positions]
  rintro ⟨i, hi, -⟩
  exact h (List.mem_of_getElem? hi)

theorem not_contains_of_notMem (c : Byte) : ¬ contains s [0x7D#8, c] := by
  rintro ⟨front, back, rfl⟩
  simp at h

end Positions

/-! ## The single pass (R105) -/

section SinglePass
variable {s p : Seq} {x c r : Byte}

theorem unesc_eq_some_iff : unesc c = some r ↔ c = 0x5E#8 ∧ r = 0x7E#8 ∨ c = 0x5D#8 ∧ r = 0x7D#8 ∨
    c = 0x31#8 ∧ r = 0x11#8 ∨ c = 0x33#8 ∧ r = 0x13#8 := by
  unfold unesc
  split_ifs with h1 h2 h3 h4 <;> simp_all [eq_comm]

/-- The bytes that stand for a reserved byte are the continuation bytes (30_encoding.md R63). -/
theorem unesc_isSome (c : Byte) : (unesc c).isSome = isContinuation c := by
  unfold unesc isContinuation
  split_ifs <;> simp_all

theorem destuff1_cons_ne (hx : x ≠ 0x7D#8) (s : Seq) : destuff1 (x :: s) = (destuff1 s).map (x :: ·) := by
  cases s <;> simp [destuff1, hx]

theorem destuff1_pair (hc : unesc c = some r) (s : Seq) :
    destuff1 (0x7D#8 :: c :: s) = (destuff1 s).map (r :: ·) := by
  simp [destuff1, hc]

/-- Induction along the single pass: on ESC-clean input it copies a byte that is no escape byte, or takes a pair. -/
theorem destuff1_induction {motive : ∀ s p : Seq, destuff1 s = some p → Prop}
    (nil : motive [] [] rfl)
    (plain : ∀ x s p (hx : x ≠ 0x7D#8) (h : destuff1 s = some p), motive s p h →
      motive (x :: s) (x :: p) (by rw [destuff1_cons_ne hx, h]; rfl))
    (pair : ∀ c r s p (hc : unesc c = some r) (h : destuff1 s = some p), motive s p h →
      motive (0x7D#8 :: c :: s) (r :: p) (by rw [destuff1_pair hc, h]; rfl))
    (h : destuff1 s = some p) : motive s p h := by
  fun_induction destuff1 s generalizing p with
  | case1 => cases h; exact nil
  | case2 => exact absurd h (by simp [destuff1])
  | case3 x hx =>
    obtain ⟨q, hq, rfl⟩ := Option.map_eq_some_iff.mp ((destuff1_cons_ne hx []).symm.trans h)
    cases hq; exact plain x [] [] hx rfl nil
  | case4 c rest r hc ih =>
    obtain ⟨q, hq, rfl⟩ := Option.map_eq_some_iff.mp ((destuff1_pair hc rest).symm.trans h)
    exact pair c r rest q hc hq (ih hq)
  | case5 c rest hc => exact absurd h (by simp [destuff1, hc])
  | case6 x y rest hx ih =>
    obtain ⟨q, hq, rfl⟩ := Option.map_eq_some_iff.mp ((destuff1_cons_ne hx (y :: rest)).symm.trans h)
    exact plain x (y :: rest) q hx hq (ih hq)

/-- R105: the single pass has no result exactly on input that is not ESC-clean. -/
theorem destuff1_eq_none_iff (s : Seq) : destuff1 s = none ↔ escErr s = true := by
  fun_induction destuff1 s with
  | case1 => simp
  | case2 => simp
  | case3 x hx => simp [hx]
  | case4 c rest r hc ih =>
    have hcont : isContinuation c = true := by rw [← unesc_isSome, hc]; rfl
    rw [Option.map_eq_none_iff, ih, escErr_pair hcont]
  | case5 c rest hc =>
    have hcont : isContinuation c = false := by rw [← unesc_isSome, hc]; rfl
    simp [escErr_cons_cons, hcont]
  | case6 x y rest hx ih => rw [Option.map_eq_none_iff, ih, escErr_cons_ne hx]

/-- A byte that is not reserved stands at the front of the result exactly when it stands at the front of the input. -/
theorem destuff1_head?_iff (h : destuff1 s = some p) {b : Byte} (hb : isReserved b = false) :
    p.head? = some b ↔ s.head? = some b := by
  induction h using destuff1_induction with
  | nil => rfl
  | plain => rfl
  | pair c r s p hc h ih =>
    have hesc : (0x7D#8 : Byte) ≠ b := by rintro rfl; cases hb
    have hr : r ≠ b := by
      rintro rfl
      obtain ⟨-, rfl⟩ | ⟨-, rfl⟩ | ⟨-, rfl⟩ | ⟨-, rfl⟩ := unesc_eq_some_iff.mp hc <;> cases hb
    simp [hesc, hr]

/-- The stuffed form of a byte gives the byte back. -/
theorem destuff1_stuffByte_append (b : Byte) (s : Seq) :
    destuff1 (stuffByte b ++ s) = (destuff1 s).map (b :: ·) := by
  obtain ⟨rfl, h⟩ | ⟨rfl, h⟩ | ⟨rfl, h⟩ | ⟨rfl, h⟩ | ⟨⟨-, hb, -⟩, h⟩ := stuffByte_cases b
  · rw [h]; exact destuff1_pair rfl s
  · rw [h]; exact destuff1_pair rfl s
  · rw [h]; exact destuff1_pair rfl s
  · rw [h]; exact destuff1_pair rfl s
  · rw [h]; exact destuff1_cons_ne hb s

/-- R106 law 4. -/
@[simp] theorem destuff1_stuff (p : Seq) : destuff1 (stuff p) = some p := by
  induction p with
  | nil => rfl
  | cons b rest ih => rw [stuff_cons, destuff1_stuffByte_append, ih]; rfl

/-- Stuffed content is ESC-clean (R106 law 4). -/
@[simp] theorem escErr_stuff (p : Seq) : escErr (stuff p) = false := by
  rw [← Bool.not_eq_true, ← destuff1_eq_none_iff, destuff1_stuff]
  exact Option.some_ne_none p

end SinglePass

/-! ## `destuff4` on ESC-clean input

Its last two substitutions, on the single pass's result. -/

section FourPasses
variable {s p : Seq} {x c r : Byte}

/-- The last two substitutions of `destuff4`. -/
def lastPasses (p : Seq) : Seq := replace2 0x7D#8 0x33#8 0x13#8 (replace2 0x7D#8 0x31#8 0x11#8 p)

/-- A byte put in front of a sequence, pairing with the front byte there as in the last two substitutions. -/
def pushPairing (x : Byte) : Seq → Seq
  | [] => [x]
  | y :: t =>
    if x = 0x7D#8 ∧ y = 0x31#8 then 0x11#8 :: t
    else if x = 0x7D#8 ∧ y = 0x33#8 then 0x13#8 :: t
    else x :: y :: t

theorem pushPairing_ne (hx : x ≠ 0x7D#8) (t : Seq) : pushPairing x t = x :: t := by
  cases t <;> simp [pushPairing, hx]

theorem lastPasses_cons_ne (hx : x ≠ 0x7D#8) (p : Seq) : lastPasses (x :: p) = x :: lastPasses p := by
  simp [lastPasses, hx]

/-- The last two substitutions are a fold: what they make of the front byte depends on their result for the rest. -/
theorem lastPasses_cons (x : Byte) (p : Seq) : lastPasses (x :: p) = pushPairing x (lastPasses p) := by
  by_cases hx : x = 0x7D#8
  case neg => rw [lastPasses_cons_ne hx, pushPairing_ne hx]
  subst hx
  cases p with
  | nil => rfl
  | cons y rest =>
    by_cases h31 : y = 0x31#8
    · subst h31; simp [lastPasses, pushPairing]
    by_cases h33 : y = 0x33#8
    · subst h33; simp [lastPasses, pushPairing, replace2_miss]
    -- No pair at the front: neither substitution puts a `31` or `33` there.
    obtain ⟨z, t, hz, hzy⟩ := replace2_cons_front 0x7D#8 0x31#8 0x11#8 y rest
    have hz31 : z ≠ 0x31#8 := by rcases hzy with rfl | rfl; exacts [h31, by decide]
    have hz33 : z ≠ 0x33#8 := by rcases hzy with rfl | rfl; exacts [h33, by decide]
    obtain ⟨w, u, hw, hwz⟩ := replace2_cons_front 0x7D#8 0x33#8 0x13#8 z t
    have hw31 : w ≠ 0x31#8 := by rcases hwz with rfl | rfl; exacts [hz31, by decide]
    have hw33 : w ≠ 0x33#8 := by rcases hwz with rfl | rfl; exacts [hz33, by decide]
    simp [lastPasses, pushPairing, replace2_miss, h31, hz, hz33, hw, hw31, hw33]

theorem destuff4_eq_lastPasses (s : Seq) :
    destuff4 s = lastPasses (replace2 0x7D#8 0x5D#8 0x7D#8 (replace2 0x7D#8 0x5E#8 0x7E#8 s)) := rfl

theorem destuff4_cons_ne (hx : x ≠ 0x7D#8) (s : Seq) : destuff4 (x :: s) = x :: destuff4 s := by
  simp [destuff4, hx]

/-- `destuff4` turns a pair at the front into its byte; a `7D` from the second substitution may pair again in the last two (R104). -/
theorem destuff4_pair (hc : unesc c = some r) (s : Seq) :
    destuff4 (0x7D#8 :: c :: s) = pushPairing r (destuff4 s) := by
  obtain ⟨rfl, rfl⟩ | ⟨rfl, rfl⟩ | ⟨rfl, rfl⟩ | ⟨rfl, rfl⟩ := unesc_eq_some_iff.mp hc
  · simp [destuff4, pushPairing_ne]
  · rw [destuff4_eq_lastPasses, destuff4_eq_lastPasses, ← lastPasses_cons]
    simp [replace2_miss]
  · simp [destuff4, pushPairing_ne, replace2_miss]
  · simp [destuff4, pushPairing_ne, replace2_miss]

/-- On ESC-clean input the four substitutions are the single pass, and then the last two once more on its result. -/
theorem destuff4_eq_of_destuff1 (h : destuff1 s = some p) : destuff4 s = lastPasses p := by
  induction h using destuff1_induction with
  | nil => rfl
  | plain x s p hx h ih => rw [destuff4_cons_ne hx, lastPasses_cons_ne hx, ih]
  | pair c r s p hc h ih => rw [destuff4_pair hc, lastPasses_cons, ih]

/-- A cascade in ESC-clean input is `7D 31` or `7D 33` in the single pass's result: a `7D` there was `7D 5D`. -/
theorem casc_iff_cascades_of_destuff1 (h : destuff1 s = some p) : casc s = true ↔ cascades p := by
  induction h using destuff1_induction with
  | nil => simp [cascades, not_contains_nil_pair]
  | plain x s p hx h ih => simp [hx, cascades_cons, ih]
  | pair c r s p hc h ih =>
    have h31 : p.head? = some 0x31#8 ↔ s.head? = some 0x31#8 := destuff1_head?_iff h rfl
    have h33 : p.head? = some 0x33#8 ↔ s.head? = some 0x33#8 := destuff1_head?_iff h rfl
    rw [cascades_cons, h31, h33, ← ih, casc_cons, Bool.or_eq_true, cascHead_iff]
    obtain ⟨rfl, rfl⟩ | ⟨rfl, rfl⟩ | ⟨rfl, rfl⟩ | ⟨rfl, rfl⟩ := unesc_eq_some_iff.mp hc <;>
      simp [List.head?_eq_getElem?]

end FourPasses

/-! ## When the substitutions find nothing -/

section NothingFound
variable (s : Seq)

theorem lastPasses_length_le : (lastPasses s).length ≤ s.length :=
  (replace2_length_le ..).trans (replace2_length_le ..)

theorem lastPasses_length_eq_iff : (lastPasses s).length = s.length ↔ ¬ cascades s := by
  rw [lastPasses, length_after_replace2_eq_iff _ (replace2_length_le _ _ _), replace2_length_eq_iff, cascades, not_or]

variable {s} in
theorem lastPasses_eq_self (h : ¬ cascades s) : lastPasses s = s := by
  obtain ⟨h31, h33⟩ := not_or.mp h
  rw [lastPasses, replace2_eq_self _ h31, replace2_eq_self _ h33]

theorem lastPasses_eq_self_iff : lastPasses s = s ↔ ¬ cascades s :=
  ⟨fun h => (lastPasses_length_eq_iff s).mp (congrArg List.length h), lastPasses_eq_self⟩

theorem lastThreePasses_length_le (c r : Byte) : (lastPasses (replace2 0x7D#8 c r s)).length ≤ s.length :=
  (lastPasses_length_le _).trans (replace2_length_le ..)

/-- De-stuffing never lengthens (R106 law 6). -/
theorem destuff4_length_le : (destuff4 s).length ≤ s.length :=
  (lastThreePasses_length_le ..).trans (replace2_length_le ..)

/-- De-stuffing keeps the length exactly when none of the four pairs is in the input (R106 law 6). -/
theorem destuff4_length_eq_iff : (destuff4 s).length = s.length ↔ ¬ contains s [0x7D#8, 0x5E#8] ∧
    ¬ contains s [0x7D#8, 0x5D#8] ∧ ¬ contains s [0x7D#8, 0x31#8] ∧ ¬ contains s [0x7D#8, 0x33#8] := by
  have hlast (t : Seq) := lastThreePasses_length_le t 0x5D#8 0x7D#8
  rw [destuff4_eq_lastPasses, length_after_replace2_eq_iff _ hlast, length_after_replace2_eq_iff _ lastPasses_length_le,
    lastPasses_length_eq_iff, cascades, not_or]

variable {s} in
/-- Where none of the four pairs is, no substitution changes anything for the next one (R106 law 6). -/
theorem destuff4_eq_self (h5E : ¬ contains s [0x7D#8, 0x5E#8]) (h5D : ¬ contains s [0x7D#8, 0x5D#8])
    (hlast : ¬ cascades s) : destuff4 s = s := by
  rw [destuff4_eq_lastPasses, replace2_eq_self _ h5E, replace2_eq_self _ h5D, lastPasses_eq_self hlast]

end NothingFound

/-! ## The operation (R103) -/

section Operation
variable {s : State}

theorem exec_destuff_error (h : escErr s.buf = true) : exec .destuff s = .next (s.raise .esc) := by
  rw [exec_opWord rfl]
  simp only [opResult, destuffResult_error h, settle_error]

theorem exec_destuff_clean (h : escErr s.buf = false) :
    exec .destuff s = .next (s.complete (destuff4 s.buf) (casc s.buf)) := by
  rw [exec_opWord rfl]
  simp only [opResult, opCasc, destuffResult_ok h, settle_ok]

end Operation

/-! ## The statements -/

/-- Settles O16: the loop from index 0 with `|s|` turns; the second byte of an occurrence is `b`, and `b` is not `a`. -/
theorem replaceIsTheLoopOfItsRule : Obligations.ReplaceIsTheLoopOfItsRule := by
  unfold Obligations.ReplaceIsTheLoopOfItsRule
  refine ⟨fun s a b c => (replace2Loop_eq_append a b c s s.length 0 [] le_rfl).symm, fun s a b i hab _ hb ha => ?_⟩
  exact hab (Option.some.inj (ha.symm.trans hb))

/-- Settles O17: by the recursion of `escErr`, an error at the front being position 0; the statement lists the continuation bytes. -/
theorem escErrByPositions : Obligations.EscErrByPositions := by
  unfold Obligations.EscErrByPositions
  intro s
  have hcont (c : Byte) : isContinuation c = false ↔ c ≠ 0x5E#8 ∧ c ≠ 0x5D#8 ∧ c ≠ 0x31#8 ∧ c ≠ 0x33#8 := by
    rw [← Bool.not_eq_true, isContinuation_iff]
    simp only [not_or]
  simp only [← hcont]
  rw [escErr_iff_positions]
  refine exists_congr fun i => ⟨fun h => ⟨?_, h⟩, And.right⟩
  obtain ⟨hi, -⟩ := List.getElem?_eq_some_iff.mp h.1
  exact hi

/-- Settles O18: by the recursion of `casc`; three bytes at positions in a row are a contiguous sub-sequence. -/
theorem cascByPositions : Obligations.CascByPositions := by
  unfold Obligations.CascByPositions
  refine fun s => ⟨casc_iff_positions s, ?_⟩
  simp only [casc_iff_positions, contains_triple_iff, and_or_left, exists_or]

/-- Settles O19: DESTUFF is its pure result settled, by whether the input is ESC-clean. -/
theorem destuffOperation : Obligations.DestuffOperation := by
  unfold Obligations.DestuffOperation
  intro s
  refine ⟨exec_destuff_error, fun h => ?_⟩
  rw [exec_destuff_clean h]
  cases casc s.buf <;> rfl

/-- Settles O20: without `7D` no substitution finds anything, and there is neither an error nor a cascade. -/
theorem destuffWithoutEscapeByteChangesNothing : Obligations.DestuffWithoutEscapeByteChangesNothing := by
  unfold Obligations.DestuffWithoutEscapeByteChangesNothing
  intro s h
  have hsame : destuff4 s.buf = s.buf := destuff4_eq_self (not_contains_of_notMem h _)
    (not_contains_of_notMem h _) (not_or.mpr ⟨not_contains_of_notMem h _, not_contains_of_notMem h _⟩)
  refine ⟨hsame, ?_⟩
  rw [exec_destuff_clean (escErr_eq_false_of_notMem h), hsame, casc_eq_false_of_notMem h]
  rfl

/-- Settles O21: along the branches of the single pass. -/
theorem singlePassIsDefinedOnCleanInput : Obligations.SinglePassIsDefinedOnCleanInput := by
  unfold Obligations.SinglePassIsDefinedOnCleanInput
  exact destuff1_eq_none_iff

/-- Settles O22: `destuff4` is the single pass and two more substitutions, which find nothing exactly when there is no cascade. -/
theorem fourPassesAreOnePassIffNoCascade : Obligations.FourPassesAreOnePassIffNoCascade := by
  unfold Obligations.FourPassesAreOnePassIffNoCascade
  intro s hclean
  have hdefined : destuff1 s ≠ none := by rw [ne_eq, destuff1_eq_none_iff, hclean]; decide
  obtain ⟨p, hp⟩ := Option.ne_none_iff_exists'.mp hdefined
  calc destuff1 s = some (destuff4 s)
      ↔ lastPasses p = p := by rw [hp, destuff4_eq_of_destuff1 hp, Option.some.injEq, eq_comm]
    _ ↔ ¬ cascades p := lastPasses_eq_self_iff p
    _ ↔ casc s = false := by rw [← casc_iff_cascades_of_destuff1 hp, Bool.not_eq_true]

/-- Settles O23: byte by byte of the content. -/
theorem singlePassUndoesStuffing : Obligations.SinglePassUndoesStuffing := by
  unfold Obligations.SinglePassUndoesStuffing
  exact fun p => ⟨escErr_stuff p, destuff1_stuff p⟩

/-- Settles O24: on stuffed content the single pass gives the content back, so `destuff4` is the last two substitutions on it. -/
theorem destuffUndoesStuffingIffNoCascade : Obligations.DestuffUndoesStuffingIffNoCascade := by
  unfold Obligations.DestuffUndoesStuffingIffNoCascade
  intro p
  have hp : destuff1 (stuff p) = some p := destuff1_stuff p
  exact ⟨destuff4_eq_of_destuff1 hp ▸ lastPasses_eq_self_iff p, casc_iff_cascades_of_destuff1 hp⟩

/-- Settles O25: by the four substitutions, each of which shortens or changes nothing. -/
theorem destuffNeverLengthens : Obligations.DestuffNeverLengthens := by
  unfold Obligations.DestuffNeverLengthens
  refine fun s => ⟨destuff4_length_le s, destuff4_length_eq_iff s, fun hlen => ?_⟩
  obtain ⟨h5E, h5D, h31, h33⟩ := (destuff4_length_eq_iff s).mp hlen
  exact destuff4_eq_self h5E h5D (not_or.mpr ⟨h31, h33⟩)

end Sys2Proof.Machine

/-! PROOFS of the family 42_trim_transform.md. First the end of TRIM and of XFORM by the test that decides it, then a buffer without escape
byte; then the statements. -/

namespace Sys2Proof.Machine

/-! ## The ends of TRIM and XFORM (42_trim_transform.md R121, R122) -/

section Ends
variable {s : State}

theorem okStatus_eq_ite (c : Bool) : okStatus c = if c then 0x41#8 else 0x01#8 := by cases c <;> rfl

theorem exec_trim_short (h : s.bufLen < 7) : exec .trim s = .next (s.raise .short) := by
  rw [exec_opWord rfl]
  simp only [opResult, trimResult_error h, settle_error]

theorem exec_xform_esc (h : escErr s.buf = true) : exec .xform s = .next (s.raise .esc) := by
  rw [exec_opWord rfl]
  simp only [opResult, xformResult, h, if_true, settle_error]

variable (hclean : escErr s.buf = false)
include hclean

theorem exec_xform_short (h : (destuff4 s.buf).length < 7) : exec .xform s = .next (s.raise .short) := by
  rw [exec_opWord rfl]
  simp [opResult, xformResult, hclean, h]

theorem exec_xform_long (h : 7 ≤ (destuff4 s.buf).length) :
    exec .xform s = .next (s.complete (trim (destuff4 s.buf)) (casc s.buf)) := by
  rw [exec_opWord rfl]
  simp [opResult, opCasc, xformResult, hclean, Nat.not_lt.mpr h]

end Ends

/-! ## A buffer without escape byte -/

/-- Where there is nothing to de-stuff, XFORM does what TRIM does (41_destuff.md R106 law 1). -/
theorem exec_xform_eq_trim_of_notMem {s : State} (hno : 0x7D#8 ∉ s.buf) (hlong : 7 ≤ s.bufLen) :
    exec .xform s = exec .trim s := by
  have hsame : destuff4 s.buf = s.buf := (destuffWithoutEscapeByteChangesNothing s hno).1
  rw [exec_xform_long (escErr_eq_false_of_notMem hno) (hsame.symm ▸ hlong), hsame, casc_eq_false_of_notMem hno,
    exec_trim_long hlong]

/-- A frame with nothing reserved between its markers holds no escape byte. -/
theorem escapeByte_notMem_of_inner {inner : Seq} (h : ∀ b ∈ inner, isReserved b = false) :
    0x7D#8 ∉ 0x7E#8 :: (inner ++ [0x7E#8]) := by
  have hinner : 0x7D#8 ∉ inner := fun hmem => absurd (h _ hmem) (by decide)
  simp [hinner]

/-- Every expected response is long enough to be trimmed (30_encoding.md R68). -/
theorem Command.expectedResponse_ge (c : Command) : 7 ≤ c.expectedResponse := by cases c <;> decide

/-! ## The statements -/

/-- Settles O31: a trimmed byte is the byte five positions further in `BUF`. -/
theorem trimOperation : Obligations.TrimOperation := by
  unfold Obligations.TrimOperation
  refine fun s => ⟨exec_trim_short, fun hlong => ⟨trim s.buf, exec_trim_long hlong, trim_length s.buf, fun i hi => ?_⟩⟩
  rw [trim_length] at hi
  have hin : 5 + i < s.buf.length - 2 := by omega
  rw [State.readByte, Nat.add_comm i 5]
  exact slice_getElem? s.buf 5 (s.buf.length - 2) i hin

/-- Settles O32: XFORM by its two tests in their order. -/
theorem xformOperation : Obligations.XformOperation := by
  unfold Obligations.XformOperation
  refine fun s => ⟨exec_xform_esc, exec_xform_short, fun hclean hlong => ?_⟩
  rw [exec_xform_long hclean hlong, State.complete, okStatus_eq_ite]
  rfl

/-- Settles O33: the length that XFORM tests is that of the buffer DESTUFF leaves to TRIM, so both trim it or both raise
`ERR_SHORT`. -/
theorem xformIsDestuffThenTrim : Obligations.XformIsDestuffThenTrim := by
  unfold Obligations.XformIsDestuffThenTrim
  intro s hclean
  obtain hshort | hlong := Nat.lt_or_ge (destuff4 s.buf).length 7
  · refine ⟨_, _, _, exec_xform_short hclean hshort, exec_destuff_clean hclean, exec_trim_short hshort, rfl,
      fun hlong => absurd hshort (Nat.not_lt.mpr hlong), fun _ => ⟨rfl, rfl, rfl, rfl⟩⟩
  · refine ⟨_, _, _, exec_xform_long hclean hlong, exec_destuff_clean hclean, exec_trim_long hlong, rfl,
      fun _ => ⟨rfl, rfl, okStatus_eq_ite _⟩, fun hshort => absurd hshort (Nat.not_lt.mpr hlong)⟩

/-- Settles O34: such a frame holds no escape byte, so XFORM trims it as it stands, to seven bytes fewer. -/
theorem xformPayloadSizes : Obligations.XformPayloadSizes := by
  unfold Obligations.XformPayloadSizes
  refine ⟨rfl, fun c s inner hbuf hinner hlen => ⟨trim s.buf, ?_, ?_⟩⟩
  · have hno : 0x7D#8 ∉ s.buf := hbuf ▸ escapeByte_notMem_of_inner hinner
    have hlong : 7 ≤ s.bufLen := hlen ▸ c.expectedResponse_ge
    exact (exec_xform_eq_trim_of_notMem hno hlong).trans (exec_trim_long hlong)
  · calc (trim s.buf).length = s.bufLen - 7 := trim_length s.buf
      _ = c.payloadBytes := by rw [hlen, Command.payloadBytes]

end Sys2Proof.Machine

/-! PROOFS of the family 43_stuff.md. First the raw form of one byte and what it gives for a sequence, then the two ends of STUFF and
DESTUFF of stuffed content; then the statements. -/

namespace Sys2Proof.Machine

/-! ## The stuffed content (43_stuff.md R130) -/

section Stuffed
variable {b x : Byte} {p s : Seq}

theorem stuffByte_reserved (h : isReserved b = true) : stuffByte b = [0x7D#8, b ^^^ 0x20#8] := by
  obtain ⟨hpair, -⟩ := stuff_reserved h
  simpa using hpair

theorem stuffByte_plain (h : isReserved b = false) : stuffByte b = [b] := by
  rw [← Bool.not_eq_true, isReserved_iff, not_or, not_or, not_or] at h
  obtain ⟨h7E, h7D, h11, h13⟩ := h
  simp [stuffByte, h7E, h7D, h11, h13]

theorem reservedCount_cons_reserved (h : isReserved b = true) (p : Seq) : reservedCount (b :: p) = reservedCount p + 1 := by
  simp [reservedCount, h]

theorem reservedCount_cons_plain (h : isReserved b = false) (p : Seq) : reservedCount (b :: p) = reservedCount p := by
  simp [reservedCount, h]

theorem stuff_length (p : Seq) : (stuff p).length = p.length + reservedCount p := by
  induction p with
  | nil => rfl
  | cons b rest ih =>
    rw [stuff_cons, List.length_append, ih, List.length_cons]
    cases hb : isReserved b
    · rw [stuffByte_plain hb, reservedCount_cons_plain hb, List.length_singleton]; omega
    · rw [stuffByte_reserved hb, reservedCount_cons_reserved hb, List.length_cons, List.length_singleton]; omega

/-- Of the reserved bytes only the escape byte stands in the raw form of a byte: its second byte is a continuation. -/
theorem eq_escapeByte_of_mem_stuffByte (hx : isReserved x = true) (hmem : x ∈ stuffByte b) : x = 0x7D#8 := by
  cases hb : isReserved b
  case false =>
    rw [stuffByte_plain hb, List.mem_singleton] at hmem
    rw [hmem, hb] at hx
    cases hx
  case true =>
    obtain ⟨-, hcont⟩ := stuff_reserved hb
    rw [stuffByte_reserved hb, List.mem_pair] at hmem
    obtain hesc | rfl := hmem
    · exact hesc
    · rw [isReserved_eq_false_of_isContinuation hcont] at hx
      cases hx

/-- Of the reserved bytes only the escape byte stands in stuffed content. -/
theorem eq_escapeByte_of_mem_stuff (hx : isReserved x = true) (hmem : x ∈ stuff p) : x = 0x7D#8 := by
  induction p with
  | nil => cases hmem
  | cons b rest ih =>
    obtain hfront | hrest := List.mem_append.mp hmem
    · exact eq_escapeByte_of_mem_stuffByte hx hfront
    · exact ih hrest

/-- In ESC-clean input an escape byte opens one of the four escape sequences (41_destuff.md R102). -/
theorem continuation_follows_of_clean (hclean : escErr s = false) {i : Nat} (hi : s[i]? = some 0x7D#8) :
    ∃ c, s[i + 1]? = some c ∧ isContinuation c = true := by
  rw [← Bool.not_eq_true, escErr_iff_positions] at hclean
  obtain ⟨hin, -⟩ := List.getElem?_eq_some_iff.mp hi
  have hnext : i + 1 < s.length := Nat.lt_of_le_of_ne hin fun hlast => hclean ⟨i, hi, .inl hlast⟩
  refine ⟨s[i + 1], List.getElem?_eq_getElem hnext, ?_⟩
  by_contra hcont
  exact hclean ⟨i, hi, .inr ⟨_, List.getElem?_eq_getElem hnext, Bool.eq_false_of_not_eq_true hcont⟩⟩

end Stuffed

/-! ## The ends of STUFF, and DESTUFF of stuffed content (43_stuff.md R131, R132) -/

section StuffEnds
variable {s : State}

theorem exec_stuff_fits (h : (stuff s.buf).length ≤ Config.bufCap) :
    exec .stuff s = .next (s.complete (stuff s.buf) false) := by
  rw [exec_opWord rfl]
  simp only [opResult, opCasc, stuffResult_ok h, settle_ok]

theorem exec_stuff_over (h : Config.bufCap < (stuff s.buf).length) : exec .stuff s = .next (s.raise .ovf) := by
  rw [exec_opWord rfl]
  simp only [opResult, stuffResult_error h, settle_error]

/-- Each byte takes at most two bytes raw, so a buffer at most half full has room for its raw form. -/
theorem stuff_fits_of_half (h : s.bufLen ≤ Config.bufCap / 2) : (stuff s.buf).length ≤ Config.bufCap := by
  obtain ⟨-, htwice⟩ := stuff_length_bounds s.buf
  rw [State.bufLen] at h
  omega

/-- DESTUFF of stuffed content never raises `ERR_ESC`; it makes the last two substitutions on the content (R132). -/
theorem exec_destuff_stuffed {p : Seq} (h : s.buf = stuff p) :
    exec .destuff s = .next (s.complete (lastPasses p) (casc (stuff p))) := by
  have hclean : escErr s.buf = false := h ▸ escErr_stuff p
  rw [exec_destuff_clean hclean, h, destuff4_eq_of_destuff1 (destuff1_stuff p)]

end StuffEnds

/-! ## The statements -/

/-- Settles O28: a reserved byte gives two bytes and any other gives itself; what an escape byte opens follows from the result being
ESC-clean. -/
theorem stuffedContent : Obligations.StuffedContent := by
  unfold Obligations.StuffedContent
  refine ⟨fun _ _ => rfl, rfl, fun p => ?_⟩
  obtain ⟨hleast, hmost⟩ := stuff_length_bounds p
  have hnot {x : Byte} (hx : isReserved x = true) (hne : x ≠ 0x7D#8) : x ∉ stuff p :=
    fun hmem => hne (eq_escapeByte_of_mem_stuff hx hmem)
  exact ⟨stuff_length p, hleast, hmost, hnot rfl (by decide), hnot rfl (by decide), hnot rfl (by decide),
    fun _ => continuation_follows_of_clean (escErr_stuff p), escErr_stuff p⟩

/-- Settles O29: STUFF is its pure result settled, by whether the raw form fits. -/
theorem stuffOperation : Obligations.StuffOperation := by
  unfold Obligations.StuffOperation
  exact fun s => ⟨exec_stuff_fits, exec_stuff_over, fun hhalf => exec_stuff_fits (stuff_fits_of_half hhalf)⟩

/-- Settles O30: DESTUFF makes its last two substitutions on the content, which find nothing exactly when there is no cascade. -/
theorem stuffThenDestuff : Obligations.StuffThenDestuff := by
  unfold Obligations.StuffThenDestuff
  intro s hfits
  have hcasc : casc (stuff s.buf) = true ↔ cascades s.buf := casc_iff_cascades_of_destuff1 (destuff1_stuff s.buf)
  refine ⟨_, _, exec_stuff_fits hfits, exec_destuff_stuffed (State.complete_buf ..), fun hno => ?_, fun hyes => ⟨?_, ?_⟩⟩
  · rw [lastPasses_eq_self hno, Bool.eq_false_of_not_eq_true (mt hcasc.mp hno)]
    rfl
  · exact fun hsame => (lastPasses_eq_self_iff s.buf).mp hsame hyes
  · rw [hcasc.mpr hyes]
    rfl

end Sys2Proof.Machine

/-! PROOFS of the family 44_checksum.md. First the checksum as a sum and the comparison as one sum over the bytes between the markers; then
CHKVAL and XFORMV by the test that decides them; then what a cascade takes from the sum, and a raw frame with cascades; then the statements. -/

namespace Sys2Proof.Machine

/-! ## The checksum as a sum (44_checksum.md R141) -/

section Sum
variable {p : Seq}

theorem byteSum_eq_sum (p : Seq) : byteSum p = (p.map BitVec.toNat).sum := by
  induction p with
  | nil => rfl
  | cons b rest ih => rw [byteSum_cons, ih, List.map_cons, List.sum_cons]

/-- Additions that wrap at each byte end as the sum in the natural numbers, wrapped once. -/
theorem foldl_add_toNat (p : Seq) (start : Byte) :
    (p.foldl (· + ·) start).toNat = (start.toNat + byteSum p) % 256 := by
  induction p generalizing start with
  | nil => exact (Nat.mod_eq_of_lt start.isLt).symm
  | cons b rest ih => rw [List.foldl_cons, ih, byteSum_cons, BitVec.toNat_add]; omega

theorem chk_eq_not_foldl_add (p : Seq) : chk p = ~~~ (p.foldl (· + ·) 0x00#8) := by
  apply BitVec.eq_of_toNat_eq
  rw [chk_toNat, BitVec.toNat_not, foldl_add_toNat]
  simp

/-- A byte is the checksum of the bytes before it exactly when all of them together sum to `FF` (R147). -/
theorem eq_chk_iff_sum (c : Byte) : c = chk p ↔ byteSum (p ++ [c]) % 256 = 0xFF := by
  have hc : c.toNat < 256 := c.isLt
  rw [← BitVec.toNat_inj, chk_toNat, byteSum_append, byteSum_cons, byteSum_nil]
  omega

theorem byteSum_set {i : Nat} {x : Byte} (hx : p[i]? = some x) (b : Byte) :
    byteSum (p.set i b) + x.toNat = byteSum p + b.toNat := by
  induction p generalizing i with
  | nil => cases hx
  | cons y rest ih =>
    cases i with
    | zero =>
      obtain rfl : y = x := Option.some.inj hx
      simp only [List.set_cons_zero, byteSum_cons]; omega
    | succ i =>
      have hrest := ih hx
      simp only [List.set_cons_succ, byteSum_cons]; omega

end Sum

/-! ## The comparison (R147) -/

section Comparison
variable {f : Seq} {a e i : Nat}

theorem slice_succ_right {x : Byte} (hae : a ≤ e) (hx : f[e]? = some x) : slice f a (e + 1) = slice f a e ++ [x] := by
  obtain ⟨hin, -⟩ := List.getElem?_eq_some_iff.mp hx
  have hlen : a ≤ (f.take e).length := by rw [List.length_take]; omega
  rw [slice, List.take_add_one, hx, List.drop_append_of_le_length hlen]
  rfl

theorem slice_set (h : a ≤ i) (b : Byte) : slice (f.set i b) a e = (slice f a e).set (i - a) b := by
  rw [slice, List.take_set, List.drop_set, if_neg (Nat.not_lt.mpr h), slice]

/-- What stands between the first byte and the last. -/
theorem slice_between (first last : Byte) (inner : Seq) :
    slice (first :: (inner ++ [last])) 1 ((first :: (inner ++ [last])).length - 1) = inner := by
  simp [slice]

theorem chkOk_iff (f : Seq) : chkOk f = true ↔ f[f.length - 2]? = some (chk (slice f 1 (f.length - 2))) :=
  beq_iff_eq

theorem chkOk_iff_sum (hlong : 3 ≤ f.length) :
    chkOk f = true ↔ byteSum (slice f 1 (f.length - 1)) % 256 = 0xFF := by
  have hx : f[f.length - 2]? = some f[f.length - 2] := List.getElem?_eq_getElem (by omega)
  have hlast : f.length - 1 = f.length - 2 + 1 := by omega
  rw [chkOk_iff, hx, Option.some_inj, eq_chk_iff_sum, hlast, slice_succ_right (by omega) hx]

/-- One changed byte between the markers moves the sum by less than 256, so it cannot be `FF` again (R148 (a)). -/
theorem chkOk_set_eq_false {b : Byte} (hok : chkOk f = true) (h1 : 1 ≤ i) (hi : i + 2 ≤ f.length) (hne : f[i]? ≠ some b) :
    chkOk (f.set i b) = false := by
  have hlong : 3 ≤ f.length := by omega
  have hx : f[i]? = some f[i] := List.getElem?_eq_getElem (by omega)
  have hslice : (slice f 1 (f.length - 1))[i - 1]? = some f[i] := by
    rw [slice_getElem? f 1 (f.length - 1) (i - 1) (by omega), Nat.add_sub_cancel' h1, hx]
  have hsum := byteSum_set hslice b
  rw [chkOk_iff_sum hlong] at hok
  rw [← Bool.not_eq_true, chkOk_iff_sum (by rwa [List.length_set]), List.length_set, slice_set h1]
  intro hset
  refine hne (hx.trans (congrArg some (BitVec.eq_of_toNat_eq ?_)))
  have hold : f[i].toNat < 256 := f[i].isLt
  have hnew : b.toNat < 256 := b.isLt
  omega

/-- The comparison does not look at the first byte and the last (R148 (b)). -/
theorem chkOk_set_markers (hlong : 3 ≤ f.length) (first last : Byte) :
    chkOk ((f.set 0 first).set (f.length - 1) last) = chkOk f := by
  refine chkOk_congr hlong (by simp only [List.length_set]) fun j h1 hj => ?_
  rw [List.getElem?_set_ne (by omega), List.getElem?_set_ne (by omega)]

end Comparison

/-! ## The ends of CHKVAL and XFORMV (R143, R145) -/

section Ends
variable {s : State}

theorem exec_chkval_short (h : s.bufLen < 3) : exec .chkval s = .next (s.raise .short) := by
  have hshort : s.buf.length < 3 := h
  rw [exec_opWord rfl]
  simp [opResult, chkvalResult, hshort]

theorem exec_xformv_esc (h : escErr s.buf = true) : exec .xformv s = .next (s.raise .esc) := by
  rw [exec_opWord rfl]
  simp only [opResult, xformvResult, h, if_true, settle_error]

variable (hclean : escErr s.buf = false)
include hclean

theorem exec_xformv_short (h : (destuff4 s.buf).length < 7) : exec .xformv s = .next (s.raise .short) := by
  rw [exec_opWord rfl]
  simp [opResult, xformvResult, hclean, h]

variable (hlong : 7 ≤ (destuff4 s.buf).length)
include hlong

theorem exec_xformv_chk (h : chkOk (destuff4 s.buf) = false) : exec .xformv s = .next (s.raise .chk) := by
  rw [exec_opWord rfl]
  simp [opResult, xformvResult, hclean, Nat.not_lt.mpr hlong, h]

theorem exec_xformv_ok (h : chkOk (destuff4 s.buf) = true) :
    exec .xformv s = .next (s.complete (trim (destuff4 s.buf)) (casc s.buf)) := by
  rw [exec_opWord rfl]
  simp [opResult, opCasc, xformvResult, hclean, Nat.not_lt.mpr hlong, h]

end Ends

/-! ## What a cascade takes from the sum (R148 (c)) -/

section Cascades
variable {s p : Seq}

/-- Each replacement takes `d` from the sum and one from the length. -/
theorem byteSum_replace2 {a b c : Byte} {d : Nat} (h : a.toNat + b.toNat = c.toNat + d) (s : Seq) :
    byteSum (replace2 a b c s) + d * s.length = byteSum s + d * (replace2 a b c s).length := by
  fun_induction replace2 a b c s with
  | case1 => rfl
  | case2 x => rfl
  | case3 x y rest hocc ih =>
    obtain ⟨rfl, rfl⟩ := hocc
    simp only [byteSum_cons, List.length_cons, Nat.mul_add]
    omega
  | case4 x y rest hmiss ih =>
    simp only [byteSum_cons, List.length_cons, Nat.mul_add] at ih ⊢
    omega

/-- `7D 31` to `11` and `7D 33` to `13` take the same from the sum, 157, which is odd. -/
theorem byteSum_lastPasses (p : Seq) :
    byteSum (lastPasses p) + 157 * p.length = byteSum p + 157 * (lastPasses p).length := by
  have h31 := byteSum_replace2 (a := 0x7D#8) (b := 0x31#8) (c := 0x11#8) (d := 157) rfl p
  have h33 := byteSum_replace2 (a := 0x7D#8) (b := 0x33#8) (c := 0x13#8) (d := 157) rfl (replace2 0x7D#8 0x31#8 0x11#8 p)
  rw [lastPasses]
  omega

/-- Of content that sums to `FF`, one to 255 cascades take a multiple of the odd 157 that is no multiple of 256. -/
theorem byteSum_lastPasses_mod_ne (hsum : byteSum p % 256 = 0xFF) (hcasc : cascades p)
    (hfew : p.length < (lastPasses p).length + 256) : byteSum (lastPasses p) % 256 ≠ 0xFF := by
  have htaken := byteSum_lastPasses p
  have hle := lastPasses_length_le p
  have hshorter : (lastPasses p).length ≠ p.length := fun hsame => (lastPasses_length_eq_iff p).mp hsame hcasc
  omega

theorem replace2_append_ne {a b c x : Byte} (hx : x ≠ b) (s : Seq) :
    replace2 a b c (s ++ [x]) = replace2 a b c s ++ [x] := by
  fun_induction replace2 a b c s with
  | case1 => rfl
  | case2 y => exact replace2_miss a b c (fun h => hx h.2) []
  | case3 y z rest hocc ih =>
    obtain ⟨rfl, rfl⟩ := hocc
    exact (replace2_hit ..).trans (congrArg (c :: ·) ih)
  | case4 y z rest hmiss ih => exact (replace2_miss a b c hmiss _).trans (congrArg (y :: ·) ih)

theorem lastPasses_append_marker (p : Seq) : lastPasses (p ++ [0x7E#8]) = lastPasses p ++ [0x7E#8] := by
  rw [lastPasses, replace2_append_ne (by decide), replace2_append_ne (by decide), lastPasses]

/-- A front byte that is no replacement was there before the substitution. -/
theorem head?_of_replace2_head? {a b c x : Byte} (hx : x ≠ c) (h : (replace2 a b c s).head? = some x) :
    s.head? = some x := by
  cases s with
  | nil => cases h
  | cons y rest =>
    obtain ⟨z, t, hz, hzy⟩ := replace2_cons_front a b c y rest
    rw [hz, List.head?_cons] at h
    obtain rfl : z = x := Option.some.inj h
    obtain rfl | rfl := hzy
    · rfl
    · exact absurd rfl hx

theorem head?_of_lastPasses_head? {x : Byte} (hx : isReserved x = false) (h : (lastPasses p).head? = some x) :
    p.head? = some x := by
  have hne {y : Byte} (hy : isReserved y = true) : x ≠ y := by rintro rfl; rw [hx] at hy; cases hy
  exact head?_of_replace2_head? (hne rfl) (head?_of_replace2_head? (hne rfl) h)

/-- Putting a byte in front lengthens, unless it pairs. -/
theorem pushPairing_length_or (x : Byte) (t : Seq) : (pushPairing x t).length = t.length + 1 ∨
    (x = 0x7D#8 ∧ (t.head? = some 0x31#8 ∨ t.head? = some 0x33#8) ∧ (pushPairing x t).length = t.length) := by
  cases t with
  | nil => exact .inl rfl
  | cons y rest =>
    simp only [pushPairing]
    split_ifs with h31 h33
    · exact .inr ⟨h31.1, .inl (congrArg some h31.2), rfl⟩
    · exact .inr ⟨h33.1, .inr (congrArg some h33.2), rfl⟩
    · exact .inl rfl

theorem cascadeCount_cons_ne {x : Byte} (hx : x ≠ 0x7D#8) (s : Seq) : cascadeCount (x :: s) = cascadeCount s := by
  have hhead : cascHead (x :: s) = false := by
    rw [← Bool.not_eq_true, cascHead_iff]
    exact fun h => hx (Option.some.inj h.1)
  simp [cascadeCount, hhead]

theorem cascadeCount_pair_of_head? (h : s.head? = some 0x31#8 ∨ s.head? = some 0x33#8) :
    cascadeCount (0x7D#8 :: 0x5D#8 :: s) = cascadeCount s + 1 := by
  have hhead : cascHead (0x7D#8 :: 0x5D#8 :: s) = true := by
    rw [List.head?_eq_getElem?] at h
    exact (cascHead_iff _).mpr ⟨rfl, rfl, h⟩
  rw [cascadeCount, if_pos hhead, cascadeCount_cons_ne (by decide), Nat.add_comm]

theorem cascadeCount_le_pair {c r : Byte} (hc : unesc c = some r) (s : Seq) :
    cascadeCount s ≤ cascadeCount (0x7D#8 :: c :: s) := by
  have hne : c ≠ 0x7D#8 := by rintro rfl; cases hc
  rw [cascadeCount, cascadeCount_cons_ne hne]
  exact Nat.le_add_left ..

/-- The last two substitutions shorten by one for each cascade at most. -/
theorem length_le_lastPasses_add_cascadeCount (h : destuff1 s = some p) :
    p.length ≤ (lastPasses p).length + cascadeCount s := by
  induction h using destuff1_induction with
  | nil => simp
  | plain x s p hx h ih =>
    rw [lastPasses_cons_ne hx, cascadeCount_cons_ne hx, List.length_cons, List.length_cons]
    omega
  | pair c r s p hc h ih =>
    rw [lastPasses_cons, List.length_cons]
    obtain hlonger | ⟨rfl, hhead, hsame⟩ := pushPairing_length_or r (lastPasses p)
    · have hcount := cascadeCount_le_pair hc s
      omega
    · obtain rfl : c = 0x5D#8 := by
        obtain ⟨-, h⟩ | ⟨h, -⟩ | ⟨-, h⟩ | ⟨-, h⟩ := unesc_eq_some_iff.mp hc
        · cases h
        · exact h
        · cases h
        · cases h
      have hraw : s.head? = some 0x31#8 ∨ s.head? = some 0x33#8 := hhead.imp
        (fun h31 => (destuff1_head?_iff h rfl).mp (head?_of_lastPasses_head? rfl h31))
        (fun h33 => (destuff1_head?_iff h rfl).mp (head?_of_lastPasses_head? rfl h33))
      rw [cascadeCount_pair_of_head? hraw]
      omega

theorem cascades_of_infix (hinfix : p <:+: s) (h : cascades p) : cascades s := by
  simp only [cascades, contains_iff_infix] at h ⊢
  exact h.imp (·.trans hinfix) (·.trans hinfix)

end Cascades

/-! ## A raw frame (30_encoding.md R65) and its cascades -/

section RawFrame
variable {body : Seq}

theorem destuff1_stuff_append (p s : Seq) : destuff1 (stuff p ++ s) = (destuff1 s).map (p ++ ·) := by
  induction p with
  | nil => exact Option.map_id'.symm
  | cons b rest ih =>
    rw [stuff_cons, List.append_assoc, destuff1_stuffByte_append, ih, Option.map_map]
    rfl

/-- The single pass gives the frame back. -/
@[simp] theorem destuff1_rawFrameOf (body : Seq) : destuff1 (rawFrameOf body) = some (frameOf body) := by
  rw [rawFrameOf, destuff1_cons_ne (by decide), destuff1_stuff_append]
  simp [destuff1, frameOf]

theorem escErr_rawFrameOf (body : Seq) : escErr (rawFrameOf body) = false := by
  rw [← Bool.not_eq_true, ← destuff1_eq_none_iff, destuff1_rawFrameOf]
  exact Option.some_ne_none _

/-- A frame is its content, the body and the checksum, between the markers. -/
theorem frameOf_eq_content (body : Seq) : frameOf body = 0x7E#8 :: ((body ++ [chk body]) ++ [0x7E#8]) := by
  simp [frameOf]

/-- The markers take part in no cascade, so `destuff4` leaves them around the content. -/
theorem destuff4_rawFrameOf (body : Seq) :
    destuff4 (rawFrameOf body) = 0x7E#8 :: (lastPasses (body ++ [chk body]) ++ [0x7E#8]) := by
  rw [destuff4_eq_of_destuff1 (destuff1_rawFrameOf body), frameOf_eq_content, lastPasses_cons_ne (by decide),
    lastPasses_append_marker]

theorem content_length_le_add_cascadeCount (body : Seq) : (body ++ [chk body]).length ≤
    (lastPasses (body ++ [chk body])).length + cascadeCount (rawFrameOf body) := by
  have hframe := length_le_lastPasses_add_cascadeCount (destuff1_rawFrameOf body)
  rw [← destuff4_eq_of_destuff1 (destuff1_rawFrameOf body), destuff4_rawFrameOf, frameOf_eq_content] at hframe
  simp only [List.length_cons, List.length_append] at hframe ⊢
  omega

variable (hcasc : cascades body)
include hcasc

theorem casc_rawFrameOf : casc (rawFrameOf body) = true := by
  refine (casc_iff_cascades_of_destuff1 (destuff1_rawFrameOf body)).mpr (cascades_of_infix ?_ hcasc)
  exact ⟨[0x7E#8], [chk body, 0x7E#8], rfl⟩

theorem chkOk_destuff4_rawFrameOf_eq_false (hfew : cascadeCount (rawFrameOf body) < 256)
    (hlong : 3 ≤ (destuff4 (rawFrameOf body)).length) : chkOk (destuff4 (rawFrameOf body)) = false := by
  have hcontent : byteSum (body ++ [chk body]) % 256 = 0xFF := (eq_chk_iff_sum _).mp rfl
  have hinner : cascades (body ++ [chk body]) := cascades_of_infix (List.prefix_append ..).isInfix hcasc
  have hcount := content_length_le_add_cascadeCount body
  rw [← Bool.not_eq_true, chkOk_iff_sum hlong, destuff4_rawFrameOf, slice_between]
  exact byteSum_lastPasses_mod_ne hcontent hinner (by omega)

end RawFrame

/-- The ROM frame of every command carries its checksum (44_checksum.md R142). -/
theorem chkOk_romFrame (c : Command) : chkOk (romFrame c.index) = true := by cases c <;> decide

theorem three_le_romFrame_length (c : Command) : 3 ≤ (romFrame c.index).length := by cases c <;> decide

/-- The bytes BUILD copies are the entry of the ROM space (10_state.md R27). -/
theorem State.rom_index (s : State) (c : Command) : s.rom c.index = some (romFrame c.index) := by cases c <;> rfl

/-! ## The statements -/

/-- Settles O44: the single pass gives the frame back, and each cascade then takes 157 from a sum that was `FF`. That no cascade takes
in the checksum byte is not needed: the sum counts that byte too. -/
theorem cascadeInACorrectFrameIsCaught : Obligations.CascadeInACorrectFrameIsCaught := by
  unfold Obligations.CascadeInACorrectFrameIsCaught
  intro s body hbuf hcasc _ hfew
  have hclean : escErr s.buf = false := hbuf ▸ escErr_rawFrameOf body
  refine ⟨exec_xformv_short hclean, fun hlong => ⟨?_, trim (destuff4 s.buf), ?_⟩⟩
  · have hchk : chkOk (destuff4 s.buf) = false := by
      rw [hbuf] at hfew hlong ⊢
      exact chkOk_destuff4_rawFrameOf_eq_false hcasc hfew (by omega)
    exact exec_xformv_chk hclean hlong hchk
  · have hwarn : casc s.buf = true := hbuf ▸ casc_rawFrameOf hcasc
    rw [exec_xform_long hclean hlong, hwarn]
    rfl

/-- Settles O36: the complement of a byte is 255 less it, and wrapping at each addition is wrapping once. -/
theorem checksumIsTheComplementOfTheSum : Obligations.ChecksumIsTheComplementOfTheSum := by
  unfold Obligations.ChecksumIsTheComplementOfTheSum
  exact fun b => ⟨byteSum_eq_sum b ▸ chk_toNat b, chk_eq_not_foldl_add b, rfl⟩

/-- Settles O37: the checksum byte completes the sum of the bytes before it to `FF`; of three bytes there are none before it. -/
theorem chkOkComparesTheChecksum : Obligations.ChkOkComparesTheChecksum := by
  unfold Obligations.ChkOkComparesTheChecksum
  refine fun f hlong => ⟨chkOk_iff f, chkOk_iff_sum hlong, fun hlen => ?_⟩
  have hnone : slice f 1 1 = [] := List.drop_take_self
  rw [chkOk_iff, hlen, hnone]
  rfl

/-- Settles O41: by the sum between the markers, which the changed byte moves and the markers do not. -/
theorem oneChangedByteIsDetected : Obligations.OneChangedByteIsDetected := by
  unfold Obligations.OneChangedByteIsDetected
  exact ⟨fun _ _ _ => chkOk_set_eq_false, fun _ first last hlong => chkOk_set_markers hlong first last⟩

/-- Settles O14: BUILD leaves a ROM frame and `STATUS = 01`, and CHKVAL finds its checksum right. -/
theorem buildThenChkvalSucceeds : Obligations.BuildThenChkvalSucceeds := by
  unfold Obligations.BuildThenChkvalSucceeds
  refine fun c s => ⟨s.complete (romFrame c.index) false, exec_build c s, ?_, rfl, s.rom_index c⟩
  have hlong : 3 ≤ (s.complete (romFrame c.index) false).bufLen := three_le_romFrame_length c
  rw [exec_chkval_long hlong, State.complete_buf, chkOk_romFrame]
  rfl

/-- Settles O38: CHKVAL by its two tests in their order. -/
theorem chkvalOperation : Obligations.ChkvalOperation := by
  unfold Obligations.ChkvalOperation
  refine fun s => ⟨exec_chkval_short, fun hlong hchk => ?_, fun hlong hchk => ?_⟩
  · rw [exec_chkval_long hlong, hchk]; rfl
  · rw [exec_chkval_long hlong, hchk]; rfl

/-- Settles O39: XFORMV by its three tests in their order. -/
theorem xformvOperation : Obligations.XformvOperation := by
  unfold Obligations.XformvOperation
  refine fun s => ⟨exec_xformv_esc, exec_xformv_short, exec_xformv_chk, fun hclean hlong hchk => ?_⟩
  rw [exec_xformv_ok hclean hlong hchk, State.complete, okStatus_eq_ite]
  rfl

end Sys2Proof.Machine

/-! PROOFS of the family 60_exceptions.md. First the condition of each error each pure result can be, then which error an operation word
reports, then the statements. -/

namespace Sys2Proof.Machine

/-! ## The condition of each error, operation by operation (60_exceptions.md R161) -/

section ErrorConditions
variable (b : Seq) (e : Err)

@[simp] theorem destuffResult_eq_error_iff : destuffResult b = .error e ↔ e = .esc ∧ escErr b = true := by
  obtain ⟨hesc, hr⟩ | ⟨hclean, hr⟩ := destuffResult_cases b
  · simp [hr, hesc, eq_comm (b := e)]
  · simp [hr, hclean]

@[simp] theorem trimResult_eq_error_iff : trimResult b = .error e ↔ e = .short ∧ b.length < 7 := by
  obtain ⟨hshort, hr⟩ | ⟨hlong, hr⟩ := trimResult_cases b
  · simp [hr, hshort, eq_comm (b := e)]
  · simp [hr, hlong]

@[simp] theorem stuffResult_eq_error_iff (cap : Nat) :
    stuffResult cap b = .error e ↔ e = .ovf ∧ cap < (stuff b).length := by
  obtain ⟨hover, hr⟩ | ⟨hfit, hr⟩ := stuffResult_cases b cap
  · simp [hr, hover, eq_comm (b := e)]
  · simp [hr, hfit]

@[simp] theorem xformResult_eq_error_iff : xformResult b = .error e ↔
    e = .esc ∧ escErr b = true ∨ e = .short ∧ escErr b = false ∧ (destuff4 b).length < 7 := by
  obtain ⟨hesc, hr⟩ | ⟨hclean, hshort, hr⟩ | ⟨hclean, hlong, hr⟩ := xformResult_cases b
  · simp [hr, hesc, eq_comm (b := e)]
  · simp [hr, hclean, hshort, eq_comm (b := e)]
  · simp [hr, hclean, hlong]

@[simp] theorem chkvalResult_eq_error_iff : chkvalResult b = .error e ↔
    e = .short ∧ b.length < 3 ∨ e = .chk ∧ 3 ≤ b.length ∧ chkOk b = false := by
  obtain ⟨hshort, hr⟩ | ⟨hlong, hchk, hr⟩ | ⟨hlong, hchk, hr⟩ := chkvalResult_cases b
  · simp [hr, hshort, eq_comm (b := e)]
  · simp [hr, hlong, Nat.not_lt.mpr hlong, hchk, eq_comm (b := e)]
  · simp [hr, hlong, hchk]

@[simp] theorem xformvResult_eq_error_iff : xformvResult b = .error e ↔
    e = .esc ∧ escErr b = true ∨ e = .short ∧ escErr b = false ∧ (destuff4 b).length < 7 ∨
    e = .chk ∧ escErr b = false ∧ 7 ≤ (destuff4 b).length ∧ chkOk (destuff4 b) = false := by
  obtain ⟨hesc, hr⟩ | ⟨hclean, hshort, hr⟩ | ⟨hclean, hlong, hchk, hr⟩ | ⟨hclean, hlong, hchk, hr⟩ := xformvResult_cases b
  · simp [hr, hesc, eq_comm (b := e)]
  · simp [hr, hclean, hshort, Nat.not_le.mpr hshort, eq_comm (b := e)]
  · simp [hr, hclean, hlong, Nat.not_lt.mpr hlong, hchk, eq_comm (b := e)]
  · simp [hr, hclean, hlong, hchk]

end ErrorConditions

/-! ## The operations that raise each error, in the order of R165 -/

section RaisedBy
variable (i : Instr) (b : Seq)

theorem opResult_eq_error_op_iff : opResult i b = .error .op ↔ ∃ w, i = .illegal w := by
  cases i <;> simp [opResult]

theorem opResult_eq_error_esc_iff : opResult i b = .error .esc ↔
    (i = .destuff ∨ i = .xform ∨ i = .xformv) ∧ escErr b = true := by
  cases i <;> simp [opResult]

theorem opResult_eq_error_short_iff : opResult i b = .error .short ↔
    (i = .trim ∧ b.length < 7) ∨ (i = .chkval ∧ b.length < 3) ∨
    ((i = .xform ∨ i = .xformv) ∧ escErr b = false ∧ (destuff4 b).length < 7) := by
  cases i <;> simp [opResult]

theorem opResult_eq_error_chk_iff : opResult i b = .error .chk ↔
    (i = .chkval ∧ 3 ≤ b.length ∧ chkOk b = false) ∨
    (i = .xformv ∧ escErr b = false ∧ 7 ≤ (destuff4 b).length ∧ chkOk (destuff4 b) = false) := by
  cases i <;> simp [opResult]

theorem opResult_eq_error_ovf_iff : opResult i b = .error .ovf ↔
    i = .stuff ∧ Config.bufCap < (stuff b).length := by
  cases i <;> simp [opResult]

end RaisedBy

/-! ## `STATUS` tells which error was raised -/

/-- The value of `STATUS` after an error is the power of two of its bit (R164). -/
theorem Err.status_toNat (e : Err) : e.status.toNat = 2 ^ e.bit := by cases e <;> rfl

theorem Err.status_injective : Function.Injective Err.status := by
  intro e e'
  cases e <;> cases e' <;> simp

/-- A normal end is not taken for an error: it has `OK`, and no error has. -/
theorem okStatus_ne_status (c : Bool) (e : Err) : okStatus c ≠ e.status := by cases c <;> cases e <;> decide

theorem exec_status_eq_iff {i : Instr} {s t : State} (hf : i.format = .opWord) (h : exec i s = .next t) (e : Err) :
    t.status = e.status ↔ opResult i s.buf = .error e := by
  obtain ⟨u, hr, rfl⟩ | ⟨e', hr, rfl⟩ := exec_opWord_cases hf h
  · simp [hr, okStatus_ne_status]
  · simp [hr, Err.status_injective.eq_iff]

/-! ## The statements -/

/-- Settles O48: an end without `OK` is a raised error, which writes `STATUS` alone, with the bit of the error. -/
theorem errorLeavesAllButStatus : Obligations.ErrorLeavesAllButStatus := by
  unfold Obligations.ErrorLeavesAllButStatus
  intro i s t hf h hok
  obtain ⟨e, -, rfl⟩ := exec_eq_raise_of_not_ok hf h hok
  exact ⟨rfl, e, rfl, e.status_toNat, State.raise_flagCasc s e⟩

/-- Settles O49: `STATUS` holds an error's value exactly when the pure result is that error, whose conditions are known. -/
theorem errorPriority : Obligations.ErrorPriority := by
  unfold Obligations.ErrorPriority
  intro i s t hf h
  have hreported := exec_status_eq_iff hf h
  exact ⟨(hreported .op).trans (opResult_eq_error_op_iff i s.buf),
    (hreported .esc).trans (opResult_eq_error_esc_iff i s.buf),
    (hreported .short).trans (opResult_eq_error_short_iff i s.buf),
    (hreported .chk).trans (opResult_eq_error_chk_iff i s.buf),
    (hreported .ovf).trans (opResult_eq_error_ovf_iff i s.buf)⟩

end Sys2Proof.Machine

/-! PROOFS of the family 70_reset_and_hazards.md. First that operations, transactions and runs keep the framer's invariant, then what the
de-stuffing operations do to a frame without escape byte; then the statements. -/

namespace Sys2Proof.Machine

/-! ## What keeps the buffer within its capacity and `STATUS` legal (10_state.md R22, R25) -/

section Invariant

/-- A BUILD's frame fits any buffer (40_frame_build.md R90). -/
theorem romFrame_length_le_bufCap (c : Nat) : (romFrame c).length ≤ Config.bufCap := by
  have hlen : (romFrame c).length ≤ 8 := by
    rw [romFrame, List.getD_eq_getElem?_getD]
    cases h : Config.frameRom[c]? with
    | none => exact Nat.zero_le 8
    | some f => exact Config.frameRom_length_le f (List.mem_of_getElem? h)
  have hcap := Config.bufCap_ge
  omega

/-- Of a buffer that fits, every operation makes a result that fits: STUFF tests it, BUILD's frames are short, and nothing else
lengthens. -/
theorem opResult_ok_length_le_bufCap {i : Instr} {b u : Seq} (hb : b.length ≤ Config.bufCap) (h : opResult i b = .ok u) :
    u.length ≤ Config.bufCap := by
  have htrimmed (p : Seq) : (trim p).length ≤ p.length := trim_length p ▸ Nat.sub_le ..
  have hdestuffed := destuff4_length_le b
  cases i with
  | build0 | build1 | build2 | build3 | build4 | build5 | build6 => cases h; exact romFrame_length_le_bufCap _
  | destuff =>
    obtain ⟨-, hr⟩ | ⟨-, hr⟩ := destuffResult_cases b <;> cases hr.symm.trans h
    exact hdestuffed.trans hb
  | trim =>
    obtain ⟨-, hr⟩ | ⟨-, hr⟩ := trimResult_cases b <;> cases hr.symm.trans h
    exact (htrimmed b).trans hb
  | xform =>
    obtain ⟨-, hr⟩ | ⟨-, -, hr⟩ | ⟨-, -, hr⟩ := xformResult_cases b <;> cases hr.symm.trans h
    exact (htrimmed _).trans (hdestuffed.trans hb)
  | stuff =>
    obtain ⟨-, hr⟩ | ⟨hfit, hr⟩ := stuffResult_cases b Config.bufCap <;> cases hr.symm.trans h
    exact hfit
  | chkval => exact eq_of_chkvalResult_ok h ▸ hb
  | xformv =>
    obtain ⟨-, hr⟩ | ⟨-, -, hr⟩ | ⟨-, -, -, hr⟩ | ⟨-, -, -, hr⟩ := xformvResult_cases b <;> cases hr.symm.trans h
    exact (htrimmed _).trans (hdestuffed.trans hb)
  | illegal w => cases h
  | esc7E | esc7D | esc11 | esc13 => cases h; exact hb

variable {s t : State}

/-- An operation word keeps the invariant: an error leaves the buffer, a result fits, and `STATUS` is one of R25's values. -/
theorem exec_opWord_keeps_inv {i : Instr} (hf : i.format = .opWord) (hinv : s.Inv) (h : exec i s = .next t) : t.Inv := by
  refine ⟨?_, List.mem_cons_of_mem _ (exec_status_mem_resultStatuses hf h)⟩
  obtain ⟨u, hr, rfl⟩ | ⟨e, -, rfl⟩ := exec_opWord_cases hf h
  · exact opResult_ok_length_le_bufCap hinv.1 hr
  · exact hinv.1

/-- A wire escape keeps the invariant: a substitution never lengthens, and `STATUS` stays (log 4). -/
theorem exec_wireEscape_keeps_inv {i : Instr} (hf : i.format = .wireEscape) (hinv : s.Inv) (h : exec i s = .next t) :
    t.Inv := by
  obtain ⟨c, r, hend⟩ := exec_wireEscape hf s
  cases hend.symm.trans h
  exact ⟨(replace2_length_le ..).trans hinv.1, hinv.2⟩

/-- Every transaction that is accepted keeps the invariant, the accesses by register number and the wire entry among them. -/
theorem perform_keeps_inv {x : Txn} (hinv : s.Inv) (h : perform x s = .next t) : t.Inv := by
  obtain ⟨-, rfl⟩ | ⟨v, hfit, rfl⟩ | ⟨w, -, hop⟩ | ⟨r, rfl⟩ | ⟨i, hf, hwire⟩ := perform_cases h
  · exact ⟨Nat.zero_le _, List.mem_cons_self⟩
  · exact ⟨hfit, hinv.2⟩
  · exact exec_opWord_keeps_inv (decodeWord_format w) hinv hop
  · exact hinv
  · exact exec_wireEscape_keeps_inv hf hinv hwire

/-- Every step keeps the invariant; the idle step changes nothing (log 7). -/
theorem step_keeps_inv (hinv : s.Inv) (h : step s = .next t) : t.Inv := by
  cases hscript : s.script with
  | nil => rw [step_nil hscript] at h; cases h; exact hinv
  | cons x rest => rw [step_cons hscript] at h; exact perform_keeps_inv (s := { s with script := rest }) hinv h

end Invariant

/-- A run of at least one step that ends has a first step, and goes on from there. -/
theorem run_succ_next {M : Host.Core} {k : Nat} {s t : M.State} (h : M.run (k + 1) s = .next t) :
    ∃ s', M.step s = .next s' ∧ M.run k s' = .next t := by
  cases hstep : M.step s with
  | next s' => exact ⟨s', rfl, run_succ_of_step k hstep ▸ h⟩
  | fault r => simp [Host.Core.run, hstep] at h
  | refused r => simp [Host.Core.run, hstep] at h

/-- What every step of a machine keeps, every run of it keeps. -/
theorem run_keeps {M : Host.Core} {P : M.State → Prop} (hstep : ∀ s s', P s → M.step s = .next s' → P s') {k : Nat}
    {s t : M.State} (hs : P s) (h : M.run k s = .next t) : P t := by
  induction k generalizing s with
  | zero => cases h; exact hs
  | succ k ih =>
    obtain ⟨s', hfirst, hrest⟩ := run_succ_next h
    exact ih (hstep s s' hs hfirst) hrest

/-! ## A frame without escape byte, taken for a response -/

section RequestFrame
variable {s : State}

/-- Trimming takes one byte more in front than a request's header has (30_encoding.md R61, R62). -/
theorem trim_eq_drop_requestPayload (b : Seq) : trim b = (slice b 4 (b.length - 2)).drop 1 :=
  (List.drop_drop (i := 1) (j := 4)).symm

/-- `STATUS` after a BUILD is `OK` alone (40_frame_build.md R90). -/
theorem exec_build_status {c : Command} {t : State} (h : exec c.build s = .next t) : t.status = 0x01#8 := by
  rw [exec_build] at h
  cases h
  exact okStatus_false

/-- No ROM frame holds the escape byte: nothing of a request needed stuffing. -/
theorem escapeByte_notMem_romFrame (c : Command) : 0x7D#8 ∉ romFrame c.index := by cases c <;> decide

variable (hno : 0x7D#8 ∉ s.buf)
include hno

/-- A buffer without escape byte that is too short to trim is too short for the whole receive transform. -/
theorem exec_receive_short_of_notMem (hshort : s.bufLen < 7) : exec .trim s = .next (s.raise .short) ∧
    exec .xform s = .next (s.raise .short) ∧ exec .xformv s = .next (s.raise .short) := by
  have hclean : escErr s.buf = false := escErr_eq_false_of_notMem hno
  have hdestuffed : (destuff4 s.buf).length < 7 := (destuff4_length_le s.buf).trans_lt hshort
  exact ⟨exec_trim_short hshort, exec_xform_short hclean hdestuffed, exec_xformv_short hclean hdestuffed⟩

/-- Where there is nothing to de-stuff and the checksum is right, XFORMV does what XFORM does (44_checksum.md R145). -/
theorem exec_xformv_eq_xform_of_notMem (hlong : 7 ≤ s.bufLen) (hchk : chkOk s.buf = true) :
    exec .xformv s = exec .xform s := by
  have hclean : escErr s.buf = false := escErr_eq_false_of_notMem hno
  have hsame : destuff4 s.buf = s.buf := (destuffWithoutEscapeByteChangesNothing s hno).1
  have hlong' : 7 ≤ (destuff4 s.buf).length := hsame.symm ▸ hlong
  rw [exec_xformv_ok hclean hlong' (hsame.symm ▸ hchk), exec_xform_long hclean hlong']

end RequestFrame

/-! ## The statements -/

/-- Settles O55: the defined transactions are performed whatever follows them, so with nothing after them; every step of the run keeps
the invariant. -/
theorem definedScriptRunsToItsEnd : Obligations.DefinedScriptRunsToItsEnd := by
  unfold Obligations.DefinedScriptRunsToItsEnd
  intro s hdef
  obtain ⟨t, ht⟩ := run_effect hdef s
  have hrun := ht []
  rw [List.append_nil] at hrun
  exact ⟨{ t with script := [] }, hrun, rfl, fun hinv => run_keeps (M := core) (fun _ _ => step_keeps_inv) hinv hrun⟩

/-- Settles O45: BUILD leaves a frame with no escape byte, a right checksum and `STATUS = 01`, so that XFORM and XFORMV do what TRIM
does, which takes five bytes in front. -/
theorem requestFramesAreNotResponses : Obligations.RequestFramesAreNotResponses := by
  unfold Obligations.RequestFramesAreNotResponses
  intro c s t h
  obtain ⟨t', hbuilt, hchkval, -, -⟩ := buildThenChkvalSucceeds c s
  cases hbuilt.symm.trans h
  have hbuf : t.buf = romFrame c.index := exec_build_buf h
  have hno : 0x7D#8 ∉ t.buf := hbuf ▸ escapeByte_notMem_romFrame c
  have hok : t.status = 0x01#8 := exec_build_status h
  refine ⟨fun hlen => ?_, fun hlong => ⟨?_, ?_, ?_⟩, hchkval, ?_⟩
  · exact exec_receive_short_of_notMem hno (hlen ▸ by decide)
  · rw [exec_trim_long hlong, trim_eq_drop_requestPayload, State.complete, okStatus_false, ← hok]
    rfl
  · exact exec_xform_eq_trim_of_notMem hno hlong
  · exact (exec_xformv_eq_xform_of_notMem hno hlong (hbuf ▸ chkOk_romFrame c)).trans (exec_xform_eq_trim_of_notMem hno hlong)
  · rintro rfl
    rw [exec_build] at h
    cases h
    rfl

end Sys2Proof.Machine

/-! PROOFS of the family 'other'. First the codec: what decodes to an instruction is its bytes, and where the table's numbering puts them.
Then the accesses by register number, a response frame without cascade and the layout of a request frame; then the statements. -/

namespace Sys2Proof.Machine

/-! ## Decoding is reading the encoding (30_encoding.md sections 3 and 6) -/

section Codec
variable {i : Instr} {bs rest : List Byte}

theorem illegal_wf_iff (w : Byte) : (Instr.illegal w).wf = true ↔ w ∉ definedWords := by simp [Instr.wf]

/-- An operation word decodes to the well-formed instruction of that one byte (R74 to R76). -/
theorem decodeWord_eq_iff {w : Byte} : decodeWord w = i ↔ i.wf = true ∧ encode i = [w] := by
  constructor
  · rintro rfl
    by_cases hw : w ∈ definedWords
    · have hdefined : ∀ v ∈ definedWords, (decodeWord v).wf = true ∧ encode (decodeWord v) = [v] := by decide
      exact hdefined w hw
    · rw [decodeWord_of_notMem w hw]
      exact ⟨(illegal_wf_iff w).mpr hw, rfl⟩
  · rintro ⟨hwf, henc⟩
    cases i
    case illegal v =>
      obtain rfl : v = w := List.singleton_inj.mp henc
      exact decodeWord_of_notMem v ((illegal_wf_iff v).mp hwf)
    case esc7E | esc7D | esc11 | esc13 => cases henc
    all_goals cases henc; rfl

/-- A continuation byte decodes to the instruction it opens a pair for (R63). -/
theorem decodeContinuation_eq_some_iff {c : Byte} : decodeContinuation c = some i ↔ encode i = [0x7D#8, c] := by
  constructor
  · intro h
    unfold decodeContinuation at h
    split_ifs at h <;> cases h <;> subst c <;> rfl
  · intro h
    cases i <;> cases h <;> rfl

theorem wf_of_wireEscape (hf : i.format = .wireEscape) : i.wf = true := by
  cases i
  case illegal w => cases hf
  all_goals rfl

theorem decode_opWord_eq_ok_iff :
    decode .opWord bs = .ok (i, rest) ↔ ∃ w, bs = w :: rest ∧ decodeWord w = i := by
  cases bs <;> simp [decode, and_comm]

theorem decode_wireEscape_eq_ok_iff :
    decode .wireEscape bs = .ok (i, rest) ↔ ∃ c, bs = 0x7D#8 :: c :: rest ∧ decodeContinuation c = some i := by
  match bs with
  | [] => simp [decode]
  | [b] => simp [decode]
  | b :: c :: tail =>
    by_cases hb : b = 0x7D#8
    · cases hc : decodeContinuation c <;> simp [decode, hb, hc, and_comm, eq_comm]
    · simp [decode, hb]

/-- The encoding of an operation word is one byte. -/
theorem exists_encode_eq_singleton (hf : i.format = .opWord) : ∃ w, encode i = [w] := by
  cases i
  case esc7E | esc7D | esc11 | esc13 => cases hf
  all_goals exact ⟨_, rfl⟩

/-- The encoding of a wire escape is the escape byte and a continuation. -/
theorem exists_encode_eq_pair (hf : i.format = .wireEscape) : ∃ c, encode i = [0x7D#8, c] := by
  cases i
  case esc7E | esc7D | esc11 | esc13 => exact ⟨_, rfl⟩
  all_goals cases hf

/-- The decoder of a format reads an instruction exactly when it is a well-formed one of the format whose bytes stand in front. -/
theorem decode_eq_ok_iff {f : Format} :
    decode f bs = .ok (i, rest) ↔ bs = encode i ++ rest ∧ i.format = f ∧ i.wf = true := by
  cases f with
  | opWord =>
    rw [decode_opWord_eq_ok_iff]
    constructor
    · rintro ⟨w, rfl, rfl⟩
      obtain ⟨hwf, henc⟩ := decodeWord_eq_iff.mp (Eq.refl (decodeWord w))
      exact ⟨by rw [henc]; rfl, decodeWord_format w, hwf⟩
    · rintro ⟨rfl, hf, hwf⟩
      obtain ⟨w, henc⟩ := exists_encode_eq_singleton hf
      exact ⟨w, by rw [henc]; rfl, decodeWord_eq_iff.mpr ⟨hwf, henc⟩⟩
  | wireEscape =>
    rw [decode_wireEscape_eq_ok_iff]
    constructor
    · rintro ⟨c, rfl, hc⟩
      have hf := decodeContinuation_format hc
      exact ⟨by rw [decodeContinuation_eq_some_iff.mp hc]; rfl, hf, wf_of_wireEscape hf⟩
    · rintro ⟨rfl, hf, -⟩
      obtain ⟨c, henc⟩ := exists_encode_eq_pair hf
      exact ⟨c, by rw [henc]; rfl, decodeContinuation_eq_some_iff.mpr henc⟩

end Codec

/-! ## The rows of the opcode table (log 5) -/

section TableRow
variable {i : Instr} {w c : Byte}

theorem wireBytes_toNat (b c : Byte) : wireBytes (b.toNat * 256 + c.toNat) = (b, c) := by
  have hb : b.toNat < 256 := b.isLt
  have hc : c.toNat < 256 := c.isLt
  have hhigh : (b.toNat * 256 + c.toNat) / 256 = b.toNat := by omega
  have hlow : BitVec.ofNat 8 (b.toNat * 256 + c.toNat) = c := by
    apply BitVec.eq_of_toNat_eq
    rw [BitVec.toNat_ofNat]
    omega
  rw [wireBytes, hhigh, hlow, BitVec.ofNat_toNat, BitVec.setWidth_eq]

/-- A row of one byte is an operation word. -/
theorem tableRow_of_encode_singleton (henc : encode i = [w]) :
    decodeTableWord (tableBits i) (tableWord i) = some (decodeWord w) ∧
    fetchTxn (tableBits i) (tableWord i) = .op w := by
  simp [decodeTableWord, fetchTxn, tableBits, tableWord, henc, isWireRow, decode]

/-- A row of the escape byte and a continuation is a wire escape. -/
theorem tableRow_of_encode_pair (henc : encode i = [0x7D#8, c]) :
    decodeTableWord (tableBits i) (tableWord i) = some i ∧
    fetchTxn (tableBits i) (tableWord i) = .wire 0x7D#8 c := by
  have hbits : tableBits i = 16 := by rw [tableBits, henc]; rfl
  have hbytes : wireBytes (tableWord i) = (0x7D#8, c) := by
    rw [tableWord, henc]
    exact wireBytes_toNat 0x7D#8 c
  have hcont : decodeContinuation c = some i := decodeContinuation_eq_some_iff.mpr henc
  simp [decodeTableWord, fetchTxn, isWireRow, hbits, hbytes, hcont, decode]

theorem runWire_of_encode (henc : encode i = [0x7D#8, c]) (s : State) : runWire 0x7D#8 c s = exec i s := by
  have hdec : decode .wireEscape [0x7D#8, c] = .ok (i, []) :=
    decode_wireEscape_eq_ok_iff.mpr ⟨c, rfl, decodeContinuation_eq_some_iff.mpr henc⟩
  rw [runWire, hdec]

end TableRow

/-! ## Accesses by register number (10_state.md R28, log 6) -/

section RegisterNumbers
variable {n : Nat} (s : State)

theorem Reg.ofNumber_eq_none (h : 3 < n) : Reg.ofNumber n = none := by
  match n with
  | 0 | 1 | 2 | 3 => omega
  | _ + 4 => rfl

/-- `OP` and the numbers above 3 cannot be read (U7). -/
theorem hostRegRead_refused (h : n = 0 ∨ 3 < n) : hostRegRead n s = .refused (.undefinedRead n) := by
  obtain rfl | habove := h
  · rfl
  · rw [hostRegRead, Reg.ofNumber_eq_none habove]

/-- `OP` takes one byte, no more and no fewer. -/
theorem hostRegWrite_op_refused {v : Seq} (h : v.length ≠ 1) : hostRegWrite 0 v s = .refused (.undefinedWrite 0) := by
  match v with
  | [] => rfl
  | [_] => exact absurd rfl h
  | _ :: _ :: _ => rfl

/-- `STATUS`, `BUF_LEN` alone and the numbers above 3 cannot be written (U7). -/
theorem hostRegWrite_refused (v : Seq) (h : n = 1 ∨ n = 2 ∨ 3 < n) :
    hostRegWrite n v s = .refused (.undefinedWrite n) := by
  obtain rfl | rfl | habove := h
  · rfl
  · rfl
  · simp only [hostRegWrite, Reg.ofNumber_eq_none habove]

end RegisterNumbers

/-! ## A frame, its checksum and its cascades -/

section Frame
variable {body : Seq}

/-- The markers take part in no cascade. -/
theorem cascades_frameOf_iff : cascades (frameOf body) ↔ cascades (body ++ [chk body]) := by
  rw [← not_iff_not, ← lastPasses_eq_self_iff, ← lastPasses_eq_self_iff, frameOf_eq_content,
    lastPasses_cons_ne (by decide), lastPasses_append_marker, List.cons_inj_right, List.append_left_inj]

/-- A frame carries the checksum of its body (44_checksum.md R142). -/
theorem chkOk_frameOf (body : Seq) : chkOk (frameOf body) = true := by
  have hcontent : byteSum (body ++ [chk body]) % 256 = 0xFF := (eq_chk_iff_sum _).mp rfl
  have hlong : 3 ≤ (frameOf body).length := by rw [frameOf_length]; omega
  rw [chkOk_iff_sum hlong, frameOf_eq_content, slice_between, hcontent]

/-- The payload of a response is what trimming leaves of its frame (30_encoding.md R62, 42_trim_transform.md R120). -/
theorem trim_frameOf_responseBody (address command st len : Byte) (payload : Seq) :
    trim (frameOf (responseBody address command st len payload)) = payload := by
  simp [trim, slice, frameOf, responseBody, Config.hdrLen, Config.tlrLen]

variable (hno : ¬ cascades (body ++ [chk body]))
include hno

theorem destuff4_rawFrameOf_eq_frameOf : destuff4 (rawFrameOf body) = frameOf body := by
  rw [destuff4_rawFrameOf, lastPasses_eq_self hno, frameOf_eq_content]

theorem casc_rawFrameOf_eq_false : casc (rawFrameOf body) = false := by
  rw [← Bool.not_eq_true, casc_iff_cascades_of_destuff1 (destuff1_rawFrameOf body), cascades_frameOf_iff]
  exact hno

/-- Of the raw form of a frame without cascade, both receive transforms deliver the trimmed frame with `OK` alone. -/
theorem exec_receive_rawFrameOf {s : State} (hbuf : s.buf = rawFrameOf body) (hlong : 7 ≤ (frameOf body).length) :
    exec .xformv s = .next (s.complete (trim (frameOf body)) false) ∧
    exec .xform s = .next (s.complete (trim (frameOf body)) false) := by
  have hclean : escErr s.buf = false := hbuf ▸ escErr_rawFrameOf body
  have hframe : destuff4 s.buf = frameOf body := hbuf ▸ destuff4_rawFrameOf_eq_frameOf hno
  have hwarn : casc s.buf = false := hbuf ▸ casc_rawFrameOf_eq_false hno
  have hlong' : 7 ≤ (destuff4 s.buf).length := hframe ▸ hlong
  have hchk : chkOk (destuff4 s.buf) = true := hframe ▸ chkOk_frameOf body
  rw [exec_xformv_ok hclean hlong' hchk, exec_xform_long hclean hlong', hframe, hwarn]
  exact ⟨rfl, rfl⟩

end Frame

/-! ## The layout of a request frame (30_encoding.md R61) -/

section RequestLayout
variable {f : Seq} {address command : Byte} {payload : Seq}

/-- A request frame by position: the markers, the address, the command, the length byte that counts the payload, and the checksum of
the bytes between. -/
theorem requestFrame_positions (hf : f = frameOf (requestBody address command payload)) :
    f[0]? = some 0x7E#8 ∧ f[1]? = some address ∧ f[2]? = some command ∧
    f[3]? = some (BitVec.ofNat 8 (f.length - 6)) ∧
    f[f.length - 2]? = some (chk (slice f 1 (f.length - 2))) ∧ f[f.length - 1]? = some 0x7E#8 := by
  have hchk : chkOk f = true := hf ▸ chkOk_frameOf _
  have hlength : f.length - 6 = payload.length := by simp [hf, requestBody]
  have hend : f[f.length - 1]? = some 0x7E#8 := by simp [hf, frameOf_eq_content]
  refine ⟨?_, ?_, ?_, ?_, (chkOk_iff f).mp hchk, hend⟩
  · rw [hf]; rfl
  · rw [hf]; rfl
  · rw [hf]; rfl
  · rw [hlength, hf]; rfl

end RequestLayout

/-- Every ROM frame is the request frame of its command byte and its payload, sent to address `00` (30_encoding.md R67). -/
theorem frameRom_eq_request : ∀ f ∈ Config.frameRom,
    f = frameOf (requestBody 0x00#8 (f.getD 2 0x00#8) (slice f 4 (f.length - 2))) := by decide

/-- Nothing between the markers of a ROM frame needs stuffing. -/
theorem frameRom_not_reserved : ∀ f ∈ Config.frameRom, ∀ b ∈ slice f 1 (f.length - 1), isReserved b = false := by decide

/-! ## The statements -/

/-- Settles O10: the decoder reads an instruction exactly where its bytes stand. -/
theorem decodeOfEncodeIsTheInstruction : Obligations.DecodeOfEncodeIsTheInstruction := by
  unfold Obligations.DecodeOfEncodeIsTheInstruction
  exact fun i rest hwf => decode_eq_ok_iff.mpr ⟨rfl, rfl, hwf⟩

/-- Settles O53: no transaction lengthens the buffer past its capacity or leaves another `STATUS`; the cells of any sequence are
canonical. -/
theorem stepKeepsInvariant : Obligations.StepKeepsInvariant := by
  unfold Obligations.StepKeepsInvariant
  exact fun s t hinv h => ⟨step_keeps_inv hinv h, t.cells_wf⟩

/-- Settles O11: the decoder reads an instruction only where its bytes stand. -/
theorem encodeOfDecodedIsTheBytes : Obligations.EncodeOfDecodedIsTheBytes := by
  unfold Obligations.EncodeOfDecodedIsTheBytes
  exact fun f bs rest i h => decode_eq_ok_iff.mp h

/-- Settles O40: the two have the same tests in the same order, but for the checksum test, which XFORM has not. -/
theorem xformvDiffersFromXformOnlyByErrChk : Obligations.XformvDiffersFromXformOnlyByErrChk := by
  unfold Obligations.XformvDiffersFromXformOnlyByErrChk
  intro s
  cases hesc : escErr s.buf with
  | true => exact .inl ((exec_xformv_esc hesc).trans (exec_xform_esc hesc).symm)
  | false =>
    obtain hshort | hlong := Nat.lt_or_ge (destuff4 s.buf).length 7
    · exact .inl ((exec_xformv_short hesc hshort).trans (exec_xform_short hesc hshort).symm)
    · cases hchk : chkOk (destuff4 s.buf) with
      | true => exact .inl ((exec_xformv_ok hesc hlong hchk).trans (exec_xform_long hesc hlong).symm)
      | false =>
        exact .inr ⟨exec_xformv_chk hesc hlong hchk, rfl, _, exec_xform_long hesc hlong, State.complete_flagOk ..⟩

/-- Settles O43: de-stuffing gives the frame back, its checksum is right, and trimming leaves the payload. -/
theorem correctResponseIsDelivered : Obligations.CorrectResponseIsDelivered := by
  unfold Obligations.CorrectResponseIsDelivered
  intro s address command st len payload hbuf hno
  have hlong : 7 ≤ (frameOf (responseBody address command st len payload)).length := by simp [responseBody]
  have hends := exec_receive_rawFrameOf hno hbuf hlong
  rw [trim_frameOf_responseBody] at hends
  exact hends

/-- Settles O5: the row of a well-formed instruction is its bytes, which `H_OP` or the wire entry decodes again. -/
theorem stepRunsThePlacedInstruction : Obligations.StepRunsThePlacedInstruction := by
  unfold Obligations.StepRunsThePlacedInstruction
  intro i s hwf
  have hstep := step_cons (s.withFetchWord_script (tableBits i) (tableWord i))
  cases hf : i.format with
  | opWord =>
    obtain ⟨w, henc⟩ := exists_encode_eq_singleton hf
    obtain ⟨hrow, hfetch⟩ := tableRow_of_encode_singleton henc
    have hword : decodeWord w = i := decodeWord_eq_iff.mpr ⟨hwf, henc⟩
    rw [hfetch] at hstep
    exact ⟨hword ▸ hrow, hstep.trans (congrArg (exec · s) hword)⟩
  | wireEscape =>
    obtain ⟨c, henc⟩ := exists_encode_eq_pair hf
    obtain ⟨hrow, hfetch⟩ := tableRow_of_encode_pair henc
    rw [hfetch] at hstep
    exact ⟨hrow, hstep.trans (runWire_of_encode henc s)⟩

/-- Settles O6: with nothing left the step is the idle step. -/
theorem idleFramerStaysAsItIs : Obligations.IdleFramerStaysAsItIs := by
  unfold Obligations.IdleFramerStaysAsItIs
  exact fun s h => step_nil h

/-- Settles O7: the step is the access performed, by the number's register. -/
theorem registerAccessesByNumber : Obligations.RegisterAccessesByNumber := by
  unfold Obligations.RegisterAccessesByNumber
  refine ⟨fun s n rest h => ?_, fun s n v rest h => ?_⟩
  · have hstep : step s = hostRegRead n { s with script := rest } := step_cons h
    rw [hstep]
    refine ⟨?_, ?_, ?_, hostRegRead_refused _⟩
    · rintro rfl; rfl
    · rintro rfl; rfl
    · rintro rfl; rfl
  · have hstep : step s = hostRegWrite n v { s with script := rest } := step_cons h
    rw [hstep]
    refine ⟨?_, ?_, ?_, ?_, hostRegWrite_refused _ v⟩
    · rintro w rfl rfl; rfl
    · rintro rfl hlen; exact hostRegWrite_op_refused _ hlen
    · rintro rfl hfit; exact hostLoad_fits hfit _
    · rintro rfl hover; exact hostLoad_over hover _

/-- Settles O15: every ROM frame is a request frame, whose layout is known by position. -/
theorem romFramesFollowTheRequestLayout : Obligations.RomFramesFollowTheRequestLayout := by
  unfold Obligations.RomFramesFollowTheRequestLayout
  refine ⟨rfl, fun f hf => ?_⟩
  have hframe := frameRom_eq_request f hf
  obtain ⟨hstart, haddress, hcommand, hlength, hchk, hend⟩ := requestFrame_positions hframe
  refine ⟨hstart, haddress, hlength, hchk, hend, frameRom_not_reserved f hf, fun command h => ?_⟩
  obtain rfl : f.getD 2 0x00#8 = command := Option.some.inj (hcommand.symm.trans h)
  exact hframe

/-- Settles O26: each of the spec's sequences, computed. -/
theorem destuffOnTheSpecsSequences : Obligations.DestuffOnTheSpecsSequences := by
  unfold Obligations.DestuffOnTheSpecsSequences
  exact ⟨rfl, rfl, rfl, rfl, rfl, rfl, rfl, rfl, rfl⟩

/-- Settles O27: the rows are the four substitutions of `destuff4`, each written back to `BUF`. -/
theorem escapeRowsAreTheSubstitutions : Obligations.EscapeRowsAreTheSubstitutions := by
  unfold Obligations.EscapeRowsAreTheSubstitutions
  refine ⟨fun s => ⟨rfl, rfl, rfl, rfl⟩, fun s hclean => ⟨_, _, _, _, rfl, rfl, rfl, rfl, ?_⟩⟩
  rw [exec_destuff_clean hclean, State.complete, okStatus_eq_ite]
  rfl

/-- Settles O52: the empty buffer fits, and `00` is legal. -/
theorem resetSatisfiesInvariant : Obligations.ResetSatisfiesInvariant := by
  unfold Obligations.ResetSatisfiesInvariant
  exact ⟨Nat.zero_le _, List.mem_cons_self⟩

end Sys2Proof.Machine
